-- ==== Sys2Proof/Word.lean ====
section
/-! DEFINITION. The word types of XBFS (00_scope.md R10: u8, u16, u32, u64). -/

namespace Sys2Proof

/-- `u8`, a byte of the stream, of a payload or of the frame buffer (R10). -/
abbrev Byte := BitVec 8

/-- `u16`, a host command word or a TLV id (R10, R80, R91). -/
abbrev Half := BitVec 16

/-- `u32`, one host register (R10, R61). -/
abbrev Word := BitVec 32

end Sys2Proof
end

