-- ==== Sys2Proof/Config.lean ====
section
/-! DEFINITION. The fixed parameters of XBFS (00_scope.md R7), its free value and its open parameter (R8). -/

namespace Sys2Proof.Config

/-- The first marker byte (R7, R87). -/
def marker0 : Byte := 0xFA

/-- The second marker byte (R7, R87). -/
def marker1 : Byte := 0xFF

/-- `MEAS_MID`, the message-id of a measurement frame (R7, R90). -/
def measMid : Byte := 0x36

/-- The LEN byte of the extended-length pattern (R7, R88). -/
def extLen : Byte := 0xFF

/-- The capacity of `FBUF` in bytes: 4 header bytes and 254 payload bytes (R7, R23, R60). -/
def fbufSize : Nat := 258

/-- The longest payload of a standard frame (R7, R88). -/
def maxPayload : Nat := 254

/-- The last mapped index of the host register file (R7, R43). -/
def lastMapped : Nat := 62

/-- The defined bits of `EVENTS` and the writable bits of `IRQ_EN`: 10 to 0 and 18 to 16 (R26, R27). -/
def eventMask : Word := 0x000707FF

/-- A byte of `FBUF` that holds no defined value: one at or past `FIDX`, or one never written (R23; 93 U1, U2
give the treatment `any value`). `draw` counts the commits and resets so far, so that two draws need not agree.
DESIGN CHOICE, log 5. Safe: nothing constrains the value. -/
opaque freeByte (draw position : Nat) : Byte

/-- The named categories of a "tri-state" status field (R205): three categories, or none for a raw value that
has none. -/
inductive Category where
  | cat0
  | cat1
  | cat2
  deriving DecidableEq, Repr

/-- The map of one tri-state field: the raw value that stands for each of the three categories (R205). -/
structure CategoryMap (w : Nat) where
  raw0 : BitVec w
  raw1 : BitVec w
  raw2 : BitVec w
  deriving DecidableEq, Repr

/-- Three different raw values map to the three categories (R205). -/
abbrev CategoryMap.wf {w : Nat} (m : CategoryMap w) : Prop :=
  m.raw0 ≠ m.raw1 ∧ m.raw0 ≠ m.raw2 ∧ m.raw1 ≠ m.raw2

/-- The category of a raw value under a map, or none (R205). -/
def CategoryMap.category {w : Nat} (m : CategoryMap w) (v : BitVec w) : Option Category :=
  if v = m.raw0 then some .cat0
  else if v = m.raw1 then some .cat1
  else if v = m.raw2 then some .cat2
  else none

/-- The open parameter `STATUS_CATEGORY_MAP` (R8, R205). The model takes it as an argument and assumes no value;
no output of the block depends on it (log 14). -/
structure StatusCategoryMap where
  norot : CategoryMap 2
  filterMode : CategoryMap 3
  rtk : CategoryMap 2
  deriving DecidableEq, Repr

/-- The open parameter `FRAME_OUT_PORT` (R8; 93 U6): the transport that carries the emitted events away, a FIFO or a
DMA engine for example, as what it holds before the first event and how it takes one more. The model takes it as an
argument and assumes nothing of it; no rule depends on it (92 D29; log 15). -/
structure FrameOutPort (Event Port : Type) where
  idle : Port
  accept : Port → Event → Port

/-- A port that queues every event, in emission order: one of the transports R8 names. -/
def FrameOutPort.fifo (Event : Type) : FrameOutPort Event (List Event) where
  idle := []
  accept queue e := queue ++ [e]

end Sys2Proof.Config
end

