-- ==== Sys2Proof/Syntax.lean ====
section
/-! DEFINITION. The syntax: one constructor of `Instr` per row of spec/opcode_table.json. -/

namespace Sys2Proof

/-- The 17 measurement fields, in the order of their field number `f` (42_tlv_parser.md R160). -/
inductive Field where
  | pktCnt | sampleTime | utc | euler | quat | acc | facc | rot | mag
  | latLon | alt | vel | statusWord | temp | baro | dv | dq
  deriving DecidableEq, Repr

/-- The rows of the opcode table. The first seven are host command words (30_encoding.md R80 to R85). The next
four are the MID and LEN dispatch inside a BYTE step (R88, R90), the last eighteen one TLV record inside a commit
(R91, R92): log 7 says what their meaning is. The four reserved patterns of the table have a constructor each
(R84; log 10). -/
inductive Instr where
  /-- `BYTE d`: one byte of the stream (R81, R110). -/
  | byte (d : Byte)
  /-- `RD i`: read the host register of index `i` (R82, R210). -/
  | rd (i : BitVec 7)
  /-- `WR i, v`: write the host register of index `i` (R83, R212). -/
  | wr (i : BitVec 7) (wdata : Word)
  /-- A reserved word with `cmd[15:14] = 11`; `x` is `cmd[13:0]` (R84, R221). -/
  | reservedOp3 (x : BitVec 14)
  /-- A reserved word with `cmd[15:14] = 00` and `cmd[13:8] != 0`; `x` is `cmd[13:0]` (R84, R221). -/
  | reservedByte (x : BitVec 14)
  /-- A reserved word with `cmd[15:14] = 01` and `cmd[13:7] != 0`; `x` is `cmd[13:0]` (R84, R221). -/
  | reservedRead (x : BitVec 14)
  /-- A reserved word with `cmd[15:14] = 10` and `cmd[13:7] != 0`; `x` is `cmd[13:0]` (R84, R221). -/
  | reservedWrite (x : BitVec 14)
  /-- The valid frame in `FBUF` is a measurement frame, MID 0x36 (R90, R144). -/
  | frameMeas
  /-- The valid frame in `FBUF` has another MID (R90, R146). -/
  | frameOther (mid : Byte)
  /-- The LEN byte of a standard frame (R88, R117). -/
  | lenStd (n : Byte)
  /-- The LEN byte 0xFF, the extended-length pattern (R88, R118). -/
  | lenExt
  /-- TLV 0x1020, packet counter (R171); as for every record below, `v` is the value, of the declared length. -/
  | tlvPktCnt (v : List Byte)
  /-- TLV 0x1060, sample time fine (R172). -/
  | tlvSampleTime (v : List Byte)
  /-- TLV 0x1010, UTC time (R173). -/
  | tlvUtc (v : List Byte)
  /-- TLV 0x2030, Euler angles (R174). -/
  | tlvEuler (v : List Byte)
  /-- TLV 0x2010, quaternion (R175). -/
  | tlvQuat (v : List Byte)
  /-- TLV 0x4020, calibrated acceleration (R176). -/
  | tlvAcc (v : List Byte)
  /-- TLV 0x4030, free acceleration (R177). -/
  | tlvFacc (v : List Byte)
  /-- TLV 0x8020, rate of turn (R178). -/
  | tlvRot (v : List Byte)
  /-- TLV 0xC020, magnetic field (R179). -/
  | tlvMag (v : List Byte)
  /-- TLV 0x5042, latitude and longitude (R180). -/
  | tlvLatLon (v : List Byte)
  /-- TLV 0x5022, altitude (R181). -/
  | tlvAlt (v : List Byte)
  /-- TLV 0xD012, velocity (R182). -/
  | tlvVel (v : List Byte)
  /-- TLV 0xE020, status word (R183). -/
  | tlvStatusWord (v : List Byte)
  /-- TLV 0x0810, temperature (R184). -/
  | tlvTemp (v : List Byte)
  /-- TLV 0x3010, barometric pressure (R185). -/
  | tlvBaro (v : List Byte)
  /-- TLV 0x4010, delta-V (R186). -/
  | tlvDv (v : List Byte)
  /-- TLV 0x8030, delta-quaternion (R187). -/
  | tlvDq (v : List Byte)
  /-- A TLV record of an unknown id (R163). -/
  | tlvUnknown (id : Half) (v : List Byte)
  deriving DecidableEq, Repr

end Sys2Proof
end

