-- ==== Sys2Proof/Machine/Fields.lean ====
section
/-! DEFINITION. The dispatch table of the known TLV ids: number, id and layout size of each field
(42_tlv_parser.md R160). -/

namespace Sys2Proof

/-- Every field, in the order of R160. -/
def Field.all : List Field :=
  [.pktCnt, .sampleTime, .utc, .euler, .quat, .acc, .facc, .rot, .mag,
   .latLon, .alt, .vel, .statusWord, .temp, .baro, .dv, .dq]

/-- The field number `f`, which is the field's bit in `AVAIL` (R160, R38). -/
def Field.number : Field → Nat
  | .pktCnt => 0
  | .sampleTime => 1
  | .utc => 2
  | .euler => 3
  | .quat => 4
  | .acc => 5
  | .facc => 6
  | .rot => 7
  | .mag => 8
  | .latLon => 9
  | .alt => 10
  | .vel => 11
  | .statusWord => 12
  | .temp => 13
  | .baro => 14
  | .dv => 15
  | .dq => 16

/-- The 16-bit TLV id of a field (R160). -/
def Field.id : Field → Half
  | .pktCnt => 0x1020
  | .sampleTime => 0x1060
  | .utc => 0x1010
  | .euler => 0x2030
  | .quat => 0x2010
  | .acc => 0x4020
  | .facc => 0x4030
  | .rot => 0x8020
  | .mag => 0xC020
  | .latLon => 0x5042
  | .alt => 0x5022
  | .vel => 0xD012
  | .statusWord => 0xE020
  | .temp => 0x0810
  | .baro => 0x3010
  | .dv => 0x4010
  | .dq => 0x8030

/-- The layout size `S` of a field in bytes (R160). -/
def Field.size : Field → Nat
  | .pktCnt => 2
  | .sampleTime => 4
  | .utc => 11
  | .euler => 12
  | .quat => 16
  | .acc => 12
  | .facc => 12
  | .rot => 12
  | .mag => 12
  | .latLon => 12
  | .alt => 6
  | .vel => 18
  | .statusWord => 4
  | .temp => 4
  | .baro => 4
  | .dv => 12
  | .dq => 16

/-- The field a TLV id names, matched on all 16 bits; none for an unknown id (R92, R160). -/
def Field.ofId (id : Half) : Option Field :=
  Field.all.find? fun f => f.id == id

end Sys2Proof
end

