-- ==== Sys2Proof/WellFormed.lean ====
section
/-! DEFINITION. Which terms of `Instr` stand for something the block can be given. -/

namespace Sys2Proof

/-- A declared TLV length is one byte, so a value has at most 255 bytes (30_encoding.md R91). -/
abbrev ValueFits (v : List Byte) : Prop := v.length ≤ 255

/-- The side conditions of the opcode table's rows: a reserved word is not a defined one (R84), 0x36 is no other
MID (R90), 0xFF is no standard LEN (R88), an unknown id is none of the 17 (R92), and a value fits its length byte. -/
abbrev Instr.WellFormed : Instr → Prop
  | .byte _ => True
  | .rd _ => True
  | .wr _ _ => True
  | .reservedOp3 _ => True
  | .reservedByte x => x.extractLsb' 8 6 ≠ 0
  | .reservedRead x => x.extractLsb' 7 7 ≠ 0
  | .reservedWrite x => x.extractLsb' 7 7 ≠ 0
  | .frameMeas => True
  | .frameOther mid => mid ≠ Config.measMid
  | .lenStd n => n ≠ Config.extLen
  | .lenExt => True
  | .tlvPktCnt v => ValueFits v
  | .tlvSampleTime v => ValueFits v
  | .tlvUtc v => ValueFits v
  | .tlvEuler v => ValueFits v
  | .tlvQuat v => ValueFits v
  | .tlvAcc v => ValueFits v
  | .tlvFacc v => ValueFits v
  | .tlvRot v => ValueFits v
  | .tlvMag v => ValueFits v
  | .tlvLatLon v => ValueFits v
  | .tlvAlt v => ValueFits v
  | .tlvVel v => ValueFits v
  | .tlvStatusWord v => ValueFits v
  | .tlvTemp v => ValueFits v
  | .tlvBaro v => ValueFits v
  | .tlvDv v => ValueFits v
  | .tlvDq v => ValueFits v
  | .tlvUnknown id v => Field.ofId id = none ∧ ValueFits v

end Sys2Proof
end

