-- ==== Sys2Proof/Decode.lean ====
section
/-! DEFINITION. The decoders (host command word, LEN byte, MID byte, TLV record), each total, and after them the
encoder and the opcode table's fixed bits (30_encoding.md). -/

namespace Sys2Proof

/-- Decoding of a host command word with its side operand, total on all 65536 words (R85). The operand is used by
a WRITE only (R80). -/
def decodeCommand (cmd : Half) (wdata : Word) : Instr :=
  if cmd &&& 0xFF00 = 0x0000 then .byte (cmd.extractLsb' 0 8)
  else if cmd &&& 0xFF80 = 0x4000 then .rd (cmd.extractLsb' 0 7)
  else if cmd &&& 0xFF80 = 0x8000 then .wr (cmd.extractLsb' 0 7) wdata
  else if cmd.extractLsb' 14 2 = 0 then .reservedByte (cmd.extractLsb' 0 14)
  else if cmd.extractLsb' 14 2 = 1 then .reservedRead (cmd.extractLsb' 0 14)
  else if cmd.extractLsb' 14 2 = 2 then .reservedWrite (cmd.extractLsb' 0 14)
  else .reservedOp3 (cmd.extractLsb' 0 14)

/-- The MID dispatch of a valid frame; no MID is illegal (R90). -/
def decodeMid (mid : Byte) : Instr :=
  if mid = Config.measMid then .frameMeas else .frameOther mid

/-- The LEN byte: a standard length, or the extended-length pattern (R88). -/
def decodeLen (b : Byte) : Instr :=
  if b = Config.extLen then .lenExt else .lenStd b

/-- The record instruction of a known field (R160). -/
def Field.instr (v : List Byte) : Field → Instr
  | .pktCnt => .tlvPktCnt v
  | .sampleTime => .tlvSampleTime v
  | .utc => .tlvUtc v
  | .euler => .tlvEuler v
  | .quat => .tlvQuat v
  | .acc => .tlvAcc v
  | .facc => .tlvFacc v
  | .rot => .tlvRot v
  | .mag => .tlvMag v
  | .latLon => .tlvLatLon v
  | .alt => .tlvAlt v
  | .vel => .tlvVel v
  | .statusWord => .tlvStatusWord v
  | .temp => .tlvTemp v
  | .baro => .tlvBaro v
  | .dv => .tlvDv v
  | .dq => .tlvDq v

/-- The TLV id dispatch: 17 known ids, every other id unknown (R92). -/
def decodeRecord (id : Half) (v : List Byte) : Instr :=
  match Field.ofId id with
  | some f => f.instr v
  | none => .tlvUnknown id v

/-- What stands at a record boundary of a payload (R91, R161). -/
inductive RecordFetch where
  /-- No byte is left. -/
  | done
  /-- One or two bytes are left, too few for a header (R165). -/
  | headerShort
  /-- A header, whose declared length runs past the payload (R164). -/
  | valueShort
  /-- A whole record: its id and its value, as long as declared. -/
  | record (id : Half) (v : List Byte)
  deriving DecidableEq, Repr

/-- Reads the record at the head of the bytes that are left: a big-endian id, a length, a value (R91). -/
def fetchRecord : List Byte → RecordFetch
  | [] => .done
  | [_] => .headerShort
  | [_, _] => .headerShort
  | hi :: lo :: len :: rest =>
    if rest.length < len.toNat then .valueShort
    else .record (hi ++ lo) (rest.take len.toNat)

/-- An instruction as it stands in one of the block's encodings: a command word with its side operand, a MID byte
and a LEN byte at their places in a frame, or the bytes of a TLV record. -/
inductive Encoded where
  | command (cmd : Half) (wdata : Word)
  | midByte (b : Byte)
  | lenByte (b : Byte)
  | record (bytes : List Byte)
  deriving DecidableEq, Repr

/-- Why bytes are no single TLV record. Nothing else is ever rejected (R84, R88, R90, R92). -/
inductive DecodeError where
  /-- Fewer than the three bytes of a header (R165). -/
  | headerShort
  /-- The declared length runs past the bytes (R164). -/
  | valueShort
  /-- Bytes are left after the record. -/
  | trailingBytes
  deriving DecidableEq, Repr

/-- The decoder over all four encodings, total, rejecting by name. -/
def decode : Encoded → Except DecodeError Instr
  | .command cmd wdata => .ok (decodeCommand cmd wdata)
  | .midByte b => .ok (decodeMid b)
  | .lenByte b => .ok (decodeLen b)
  | .record bytes =>
    match fetchRecord bytes with
    | .done => .error .headerShort
    | .headerShort => .error .headerShort
    | .valueShort => .error .valueShort
    | .record id v =>
      if bytes.length = 3 + v.length then .ok (decodeRecord id v) else .error .trailingBytes

/-- The bytes of a TLV record: id, big-endian, declared length, value (R91). -/
def recordBytes (id : Half) (v : List Byte) : List Byte :=
  id.extractLsb' 8 8 :: id.extractLsb' 0 8 :: BitVec.ofNat 8 v.length :: v

/-- The encoder, from the patterns of R80 and the layouts of R87 and R91. A command that takes no side operand is
given 0 (R80). -/
def encode : Instr → Encoded
  | .byte d => .command (0x00#8 ++ d) 0
  | .rd i => .command (0b010000000#9 ++ i) 0
  | .wr i wdata => .command (0b100000000#9 ++ i) wdata
  | .reservedOp3 x => .command (0b11#2 ++ x) 0
  | .reservedByte x => .command (0b00#2 ++ x) 0
  | .reservedRead x => .command (0b01#2 ++ x) 0
  | .reservedWrite x => .command (0b10#2 ++ x) 0
  | .frameMeas => .midByte 0x36
  | .frameOther mid => .midByte mid
  | .lenStd n => .lenByte n
  | .lenExt => .lenByte 0xFF
  | .tlvPktCnt v => .record (recordBytes 0x1020 v)
  | .tlvSampleTime v => .record (recordBytes 0x1060 v)
  | .tlvUtc v => .record (recordBytes 0x1010 v)
  | .tlvEuler v => .record (recordBytes 0x2030 v)
  | .tlvQuat v => .record (recordBytes 0x2010 v)
  | .tlvAcc v => .record (recordBytes 0x4020 v)
  | .tlvFacc v => .record (recordBytes 0x4030 v)
  | .tlvRot v => .record (recordBytes 0x8020 v)
  | .tlvMag v => .record (recordBytes 0xC020 v)
  | .tlvLatLon v => .record (recordBytes 0x5042 v)
  | .tlvAlt v => .record (recordBytes 0x5022 v)
  | .tlvVel v => .record (recordBytes 0xD012 v)
  | .tlvStatusWord v => .record (recordBytes 0xE020 v)
  | .tlvTemp v => .record (recordBytes 0x0810 v)
  | .tlvBaro v => .record (recordBytes 0x3010 v)
  | .tlvDv v => .record (recordBytes 0x4010 v)
  | .tlvDq v => .record (recordBytes 0x8030 v)
  | .tlvUnknown id v => .record (recordBytes id v)

/-- One row of spec/opcode_table.json: how many bits it gives, and its match and mask. -/
structure TableRow where
  bits : Nat
  pattern : Nat
  mask : Nat
  deriving DecidableEq, Repr

/-- The row of spec/opcode_table.json that each constructor stands for. -/
def Instr.row : Instr → TableRow
  | .byte _ => ⟨16, 0x0000, 0xFF00⟩
  | .rd _ => ⟨16, 0x4000, 0xFF80⟩
  | .wr _ _ => ⟨16, 0x8000, 0xFF80⟩
  | .reservedOp3 _ => ⟨16, 0xC000, 0xC000⟩
  | .reservedByte _ => ⟨16, 0x0000, 0xC000⟩
  | .reservedRead _ => ⟨16, 0x4000, 0xC000⟩
  | .reservedWrite _ => ⟨16, 0x8000, 0xC000⟩
  | .frameMeas => ⟨8, 0x36, 0xFF⟩
  | .frameOther _ => ⟨8, 0x00, 0x00⟩
  | .lenStd _ => ⟨8, 0x00, 0x00⟩
  | .lenExt => ⟨8, 0xFF, 0xFF⟩
  | .tlvPktCnt _ => ⟨16, 0x1020, 0xFFFF⟩
  | .tlvSampleTime _ => ⟨16, 0x1060, 0xFFFF⟩
  | .tlvUtc _ => ⟨16, 0x1010, 0xFFFF⟩
  | .tlvEuler _ => ⟨16, 0x2030, 0xFFFF⟩
  | .tlvQuat _ => ⟨16, 0x2010, 0xFFFF⟩
  | .tlvAcc _ => ⟨16, 0x4020, 0xFFFF⟩
  | .tlvFacc _ => ⟨16, 0x4030, 0xFFFF⟩
  | .tlvRot _ => ⟨16, 0x8020, 0xFFFF⟩
  | .tlvMag _ => ⟨16, 0xC020, 0xFFFF⟩
  | .tlvLatLon _ => ⟨16, 0x5042, 0xFFFF⟩
  | .tlvAlt _ => ⟨16, 0x5022, 0xFFFF⟩
  | .tlvVel _ => ⟨16, 0xD012, 0xFFFF⟩
  | .tlvStatusWord _ => ⟨16, 0xE020, 0xFFFF⟩
  | .tlvTemp _ => ⟨16, 0x0810, 0xFFFF⟩
  | .tlvBaro _ => ⟨16, 0x3010, 0xFFFF⟩
  | .tlvDv _ => ⟨16, 0x4010, 0xFFFF⟩
  | .tlvDq _ => ⟨16, 0x8030, 0xFFFF⟩
  | .tlvUnknown _ _ => ⟨16, 0x0000, 0x0000⟩

/-- The bits of an encoded instruction that the opcode table numbers: the command word, the MID or LEN byte, or the
TLV id, whose bytes are big-endian on the wire (R91). -/
def Encoded.tableWord : Encoded → Nat
  | .command cmd _ => cmd.toNat
  | .midByte b => b.toNat
  | .lenByte b => b.toNat
  | .record (hi :: lo :: _) => (hi ++ lo).toNat
  | .record _ => 0

/-- The encoding that a word of the opcode table stands for. The table numbers three encodings alike and does not
say which one a word belongs to (log 8): 16 bits that are a known TLV id are read as a record of that id with the
length byte 0, other 16 bits as a command word, the byte 0xFF as a LEN byte and another byte as a MID byte. -/
def tableEncoding (nbits w : Nat) : Option Encoded :=
  if nbits = 16 then
    match Field.ofId (BitVec.ofNat 16 w) with
    | some _ => some (.record (recordBytes (BitVec.ofNat 16 w) []))
    | none => some (.command (BitVec.ofNat 16 w) 0)
  else if nbits = 8 then
    if BitVec.ofNat 8 w = Config.extLen then some (.lenByte (BitVec.ofNat 8 w))
    else some (.midByte (BitVec.ofNat 8 w))
  else none

/-- The instruction the decoder reads from the `nbits` bits `w` of an opcode-table row (log 8). -/
def decodeTableWord (nbits w : Nat) : Option Instr :=
  match tableEncoding nbits w with
  | none => none
  | some e =>
    match decode e with
    | .ok i => some i
    | .error _ => none

end Sys2Proof
end

