-- ==== Sys2Proof/Machine/State.lean ====
section
/-! DEFINITION. The state of XBFS as plain data (10_state.md), why a step can stop, and the state after reset
(70_reset_and_hazards.md R260). -/

namespace Sys2Proof.Machine

/-- Why the machine stops. XBFS never traps (60_exceptions.md R235), so no reachable state stops. -/
inductive Fault where
  /-- An access to a byte of `FBUF` that does not exist: its positions are 0 to 257 (20_memory.md R60, R68).
  Raised by a payload byte stored at `FIDX >= 258` and by a commit whose payload would end past position 257; no
  state that a run reaches does either (R119). Safe: the model stops where no rule says what happens (log 6). -/
  | noSuchByte (position : Nat)
  deriving DecidableEq, Repr

/-- Why an instruction has no meaning. -/
inductive Refusal where
  /-- The instruction has no meaning in this model yet. Raised by no arm: every row of the table has one. Safe. -/
  | notModelled (mnemonic : String)
  deriving DecidableEq, Repr

/-- The nine states of the frame state machine `fst` (10_state.md R21). Codes 9 to 15 are never taken (93 U7) and
have no constructor (log 4). -/
inductive FrameState where
  | m0 | m1 | mid | len | pay | cks | xlh | xll | xsk
  deriving DecidableEq, Repr

/-- `FBUF` as a list of (position, byte) pairs. -/
abbrev Memory := List Host.Cell

/-- The 46 field registers, host indices 17 to 62, in index order (10_state.md R41). -/
structure FieldRegs where
  pktCnt : Word
  sampleTime : Word
  utcNs : Word
  utcYmd : Word
  utcHms : Word
  euler0 : Word
  euler1 : Word
  euler2 : Word
  quat0 : Word
  quat1 : Word
  quat2 : Word
  quat3 : Word
  acc0 : Word
  acc1 : Word
  acc2 : Word
  facc0 : Word
  facc1 : Word
  facc2 : Word
  rot0 : Word
  rot1 : Word
  rot2 : Word
  mag0 : Word
  mag1 : Word
  mag2 : Word
  latHi : Word
  latLo : Word
  lonHi : Word
  lonLo : Word
  altHi : Word
  altLo : Word
  vel0Hi : Word
  vel0Lo : Word
  vel1Hi : Word
  vel1Lo : Word
  vel2Hi : Word
  vel2Lo : Word
  statusWord : Word
  temp : Word
  baro : Word
  dv0 : Word
  dv1 : Word
  dv2 : Word
  dq0 : Word
  dq1 : Word
  dq2 : Word
  dq3 : Word
  deriving DecidableEq, Repr

/-- Every field register at 0 (R41, R43). -/
def FieldRegs.zero : FieldRegs :=
  ⟨0, 0, 0, 0, 0, 0, 0, 0, 0, 0, 0, 0, 0, 0, 0, 0, 0, 0, 0, 0, 0, 0, 0,
   0, 0, 0, 0, 0, 0, 0, 0, 0, 0, 0, 0, 0, 0, 0, 0, 0, 0, 0, 0, 0, 0, 0⟩

/-- The event codes (60_exceptions.md R230). -/
inductive EventCode where
  | ckerr | extlen | syncLost | discard | trunc | recOverrun | lenShort | unknownId | lenLong | badCmd | badReg
  | syncAcq | frameOk | recDone
  deriving DecidableEq, Repr

/-- The two emitted events (41_checksum.md R145, 42_tlv_parser.md R190). -/
inductive OutEvent where
  /-- A validated frame: MID, LEN, payload in arrival order, checksum byte. -/
  | frameOut (mid len : Byte) (payload : List Byte) (ck : Byte)
  /-- A committed record: `REC_SEQ`, `AVAIL`, `REC_STATUS` and the field registers. -/
  | recordOut (seq avail recStatus : Word) (fields : FieldRegs)
  deriving DecidableEq, Repr

/-- The outputs of one step (00_scope.md R13): the word a READ returns, the emitted events in emission order, and
the level of `irq` after the step. -/
structure StepOut where
  rdata : Option Word
  emitted : List OutEvent
  irq : Bool
  deriving DecidableEq, Repr

/-- What the two agents and the reset line present to the block (R80, R260). -/
inductive Input where
  /-- One host command: the command word and the side operand, which only a WRITE uses. -/
  | command (cmd : Half) (wdata : Word)
  /-- The hardware reset `rst`, which acts between steps. -/
  | rst
  deriving DecidableEq, Repr

/-- The working set of the TLV decode (R161): the copy `W` of the field registers, `AV`, the four flags, the record
count, the last unknown id and the offset `o` of the next record. It is local to one commit (R232; log 12). -/
structure TlvWork where
  regs : FieldRegs
  av : BitVec 17
  tr : Bool
  un : Bool
  sh : Bool
  lg : Bool
  nrec : Byte
  lastunk : Half
  off : Nat
  deriving DecidableEq, Repr

/-- The working set at the start of a decode (R161), and between commits (log 12). -/
def TlvWork.init : TlvWork :=
  ⟨FieldRegs.zero, 0, false, false, false, false, 0, 0, 0⟩

/-- The whole machine. -/
structure State where
  /-- `fst` (R21). -/
  fst : FrameState
  /-- `SYNC` (R22). -/
  sync : Bool
  /-- `FBUF` (R23, R60). -/
  fbuf : Memory
  /-- `FIDX` (R23). -/
  fidx : BitVec 9
  /-- `CUR_LEN` (R42). -/
  curLen : Byte
  /-- `ACC` (R42, R142). -/
  acc : Byte
  /-- `SKIP_REM` (R42). -/
  skipRem : BitVec 17
  /-- `CTRL.CKSEL` (R24). -/
  cksel : Bool
  /-- `EVENTS` (R26). -/
  events : Word
  /-- `IRQ_EN` (R27). -/
  irqEn : Word
  /-- `LAST_CAUSE` (R28). -/
  lastCause : Word
  /-- `DISCARD_CNT` (R29). -/
  discardCnt : Word
  /-- `RESYNC_CNT` (R30). -/
  resyncCnt : Word
  /-- `SYNCLOSS_CNT` (R31). -/
  synclossCnt : Word
  /-- `FRAME_CNT` (R32). -/
  frameCnt : Word
  /-- `CKERR_CNT` (R33). -/
  ckerrCnt : Word
  /-- `EXTLEN_CNT` (R34). -/
  extlenCnt : Word
  /-- `LAST_FRAME` (R35). -/
  lastFrame : Word
  /-- `REC_STATUS` (R36). -/
  recStatus : Word
  /-- `REC_SEQ` (R37). -/
  recSeq : Word
  /-- `AVAIL` (R38). -/
  avail : Word
  /-- The field registers (R41). -/
  fields : FieldRegs
  /-- The TLV decode's working set (R161, R232). -/
  work : TlvWork
  /-- The events the latest step raised, the latest first (R231, R233; log 11). -/
  raised : List EventCode
  /-- The outputs of the latest step (R13; log 11). -/
  out : StepOut
  /-- The outputs of every step so far, in step order (R13; log 11). -/
  trace : List StepOut
  /-- The inputs presented and not yet taken, in the order in which they are taken (R70; log 1). -/
  inputs : List Input
  /-- The model's own counter of free draws (log 13). -/
  draws : Nat
  deriving DecidableEq, Repr

/-- The machine right after a hardware reset (R260). `FBUF` is unspecified: nothing is listed (log 5). The fields
that are not the spec's (`raised`, `out`, `trace`, `inputs`, `draws`) start empty (logs 1, 11, 13). -/
def State.reset : State where
  fst := .m0
  sync := false
  fbuf := []
  fidx := 0
  curLen := 0
  acc := 0
  skipRem := 0
  cksel := false
  events := 0
  irqEn := 0
  lastCause := 0
  discardCnt := 0
  resyncCnt := 0
  synclossCnt := 0
  frameCnt := 0
  ckerrCnt := 0
  extlenCnt := 0
  lastFrame := 0
  recStatus := 0
  recSeq := 0
  avail := 0
  fields := FieldRegs.zero
  work := TlvWork.init
  raised := []
  out := ⟨none, [], false⟩
  trace := []
  inputs := []
  draws := 0

end Sys2Proof.Machine
end

