-- ==== Sys2Proof/Machine/Flags.lean ====
section
/-! DEFINITION. The pure functions behind the status bits: event codes and priority (60_exceptions.md R230, R233),
the checksum (41_checksum.md R140 to R143), the status-word split (43_status_decoder.md R203) and the packing of
the composed registers (10_state.md R25, R35, R36, R40). -/

namespace Sys2Proof.Machine

/-- The code of a state of `fst` (R21). -/
def FrameState.code : FrameState → BitVec 4
  | .m0 => 0
  | .m1 => 1
  | .mid => 2
  | .len => 3
  | .pay => 4
  | .cks => 5
  | .xlh => 6
  | .xll => 7
  | .xsk => 8

/-- The code of an event (R230). -/
def EventCode.code : EventCode → Nat
  | .ckerr => 0
  | .extlen => 1
  | .syncLost => 2
  | .discard => 3
  | .trunc => 4
  | .recOverrun => 5
  | .lenShort => 6
  | .unknownId => 7
  | .lenLong => 8
  | .badCmd => 9
  | .badReg => 10
  | .syncAcq => 16
  | .frameOk => 17
  | .recDone => 18

/-- The bit of an event in `EVENTS` (R26). -/
def EventCode.bit (e : EventCode) : Word := 1#32 <<< e.code

/-- The highest priority, that is the lowest code, among the raised error and warning events (codes 0 to 10);
none when only `info` events or no events were raised (R233). -/
def lowestCause : List EventCode → Option Nat
  | [] => none
  | e :: es =>
    if e.code ≤ 10 then
      match lowestCause es with
      | none => some e.code
      | some c => some (min e.code c)
    else lowestCause es

/-- `LAST_CAUSE` at the end of a step that raised these events (R28, R233). -/
def causeAfter (raised : List EventCode) (lastCause : Word) : Word :=
  match lowestCause raised with
  | none => lastCause
  | some c => 0x80000000#32 ||| BitVec.ofNat 32 c

/-- The sum of bytes modulo 256. -/
def byteSum : List Byte → Byte
  | [] => 0
  | b :: bs => b + byteSum bs

/-- `ck_compute(F, k)`: the negated sum of every byte but the first (`k = 0`) or but both marker bytes (`k = 1`),
for a frame `F` without its checksum byte (R140). -/
def ckCompute (f : List Byte) (k : Bool) : Byte :=
  -(byteSum (f.drop (if k then 2 else 1)))

/-- `ck_validate(G, k)` of a complete frame (R141). -/
def ckValidate (g : List Byte) (k : Bool) : Bool :=
  g.getLast? == some (ckCompute g.dropLast k)

/-- `ck_expected(ACC, CKSEL)`: the checksum the frame in `FBUF` should carry (R143). -/
def ckExpected (acc : Byte) (cksel : Bool) : Byte :=
  -(acc + (if cksel then 0x00 else 0xFF))

/-- `split(sw)`, the packed bit fields of a status word (R203). -/
def splitStatus (sw : Word) : Word :=
  (sw.extractLsb' 27 2 ++ sw.extractLsb' 26 1 ++ sw.extractLsb' 23 3 ++ sw.extractLsb' 22 1 ++ sw.extractLsb' 21 1
    ++ sw.extractLsb' 3 2 ++ sw.extractLsb' 2 1 ++ sw.extractLsb' 1 1).setWidth 32

/-- The categories of the three tri-state fields of a status word, under the open parameter (R202, R205). -/
def statusCategories (m : Config.StatusCategoryMap) (sw : Word) :
    Option Config.Category × Option Config.Category × Option Config.Category :=
  (m.norot.category (sw.extractLsb' 3 2), m.filterMode.category (sw.extractLsb' 23 3),
    m.rtk.category (sw.extractLsb' 27 2))

/-- One bit as a register word. -/
def boolWord (b : Bool) : Word := (BitVec.ofBool b).setWidth 32

/-- `STATUS` (R25, R211). -/
def packStatus (fidx : BitVec 9) (curLen : Byte) (fst : FrameState) (sync : Bool) : Word :=
  (fidx.setWidth 32 <<< 16) ||| (curLen.setWidth 32 <<< 8) ||| (fst.code.setWidth 32 <<< 1) ||| boolWord sync

/-- `DBG` (R40, R211). -/
def packDbg (acc : Byte) (skipRem : BitVec 17) : Word :=
  (acc.setWidth 32 <<< 24) ||| skipRem.setWidth 32

/-- `LAST_FRAME` (R35, R144). -/
def packLastFrame (exp ck curLen mid : Byte) : Word :=
  (exp.setWidth 32 <<< 24) ||| (ck.setWidth 32 <<< 16) ||| (curLen.setWidth 32 <<< 8) ||| mid.setWidth 32

/-- `REC_STATUS` of a freshly committed record, `PENDING` set (R36, R162). -/
def packRecStatus (w : TlvWork) : Word :=
  (w.lastunk.setWidth 32 <<< 16) ||| (w.nrec.setWidth 32 <<< 8) ||| (boolWord w.lg <<< 4) ||| (boolWord w.sh <<< 3)
    ||| (boolWord w.un <<< 2) ||| (boolWord w.tr <<< 1) ||| 1#32

end Sys2Proof.Machine
end

