-- ==== Sys2Proof/Machine/Operands.lean ====
section
/-! DEFINITION. The operand forms of a TLV value, and the extraction of each known field (20_memory.md R63,
42_tlv_parser.md R169 to R187). -/

namespace Sys2Proof.Machine

/-- Byte `k` of a value. An extraction reads bytes below the layout size only, and runs only when the value has
them (R161), so the 0 past the end is never used. -/
def byteOf (v : List Byte) (k : Nat) : Byte := v.getD k 0

/-- `be16(v, k)`: two bytes, the first one high (R10). -/
def be16 (v : List Byte) (k : Nat) : Half := byteOf v k ++ byteOf v (k + 1)

/-- `be32(v, k)`: four bytes, the first one high (R10). -/
def be32 (v : List Byte) (k : Nat) : Word :=
  byteOf v k ++ byteOf v (k + 1) ++ byteOf v (k + 2) ++ byteOf v (k + 3)

/-- `f32(v, k)`: the raw bits of the k-th float32 of a value (R170). -/
def f32 (v : List Byte) (k : Nat) : Word := be32 v (4 * k)

/-- The 64-bit integer of the FP1632 value at offset `k`: the integer part is sign-extended, the fractional part is
not (R169). -/
def fp1632 (v : List Byte) (k : Nat) : BitVec 64 :=
  ((be16 v (k + 4)).signExtend 64 <<< 32) ||| (be32 v k).setWidth 64

/-- `HI`, bits 63 to 32 of an FP1632 integer (R169). -/
def fpHi (v : List Byte) (k : Nat) : Word := (fp1632 v k).extractLsb' 32 32

/-- `LO`, bits 31 to 0 of an FP1632 integer (R169). -/
def fpLo (v : List Byte) (k : Nat) : Word := (fp1632 v k).extractLsb' 0 32

/-- `extract_f`: the registers of field `f` take what value `v` carries (R171 to R187). -/
def extract (v : List Byte) (w : FieldRegs) : Field → FieldRegs
  -- R171
  | .pktCnt => { w with pktCnt := (be16 v 0).setWidth 32 }
  -- R172
  | .sampleTime => { w with sampleTime := be32 v 0 }
  -- R173: day, month, year; second, minute, hour
  | .utc => { w with
      utcNs := be32 v 0
      utcYmd := ((byteOf v 7).setWidth 32 <<< 24) ||| ((byteOf v 6).setWidth 32 <<< 16) ||| (be16 v 4).setWidth 32
      utcHms := ((byteOf v 10).setWidth 32 <<< 16) ||| ((byteOf v 9).setWidth 32 <<< 8) ||| (byteOf v 8).setWidth 32 }
  -- R174
  | .euler => { w with euler0 := f32 v 0, euler1 := f32 v 1, euler2 := f32 v 2 }
  -- R175: wire order
  | .quat => { w with quat0 := f32 v 0, quat1 := f32 v 1, quat2 := f32 v 2, quat3 := f32 v 3 }
  -- R176
  | .acc => { w with acc0 := f32 v 0, acc1 := f32 v 1, acc2 := f32 v 2 }
  -- R177
  | .facc => { w with facc0 := f32 v 0, facc1 := f32 v 1, facc2 := f32 v 2 }
  -- R178
  | .rot => { w with rot0 := f32 v 0, rot1 := f32 v 1, rot2 := f32 v 2 }
  -- R179
  | .mag => { w with mag0 := f32 v 0, mag1 := f32 v 1, mag2 := f32 v 2 }
  -- R180: latitude first
  | .latLon => { w with latHi := fpHi v 0, latLo := fpLo v 0, lonHi := fpHi v 6, lonLo := fpLo v 6 }
  -- R181
  | .alt => { w with altHi := fpHi v 0, altLo := fpLo v 0 }
  -- R182: by wire position
  | .vel => { w with
      vel0Hi := fpHi v 0, vel0Lo := fpLo v 0
      vel1Hi := fpHi v 6, vel1Lo := fpLo v 6
      vel2Hi := fpHi v 12, vel2Lo := fpLo v 12 }
  -- R183
  | .statusWord => { w with statusWord := be32 v 0 }
  -- R184
  | .temp => { w with temp := f32 v 0 }
  -- R185
  | .baro => { w with baro := be32 v 0 }
  -- R186
  | .dv => { w with dv0 := f32 v 0, dv1 := f32 v 1, dv2 := f32 v 2 }
  -- R187
  | .dq => { w with dq0 := f32 v 0, dq1 := f32 v 1, dq2 := f32 v 2, dq3 := f32 v 3 }

end Sys2Proof.Machine
end

