-- ==== Sys2Proof/Machine/Ops.lean ====
section
/-! DEFINITION. The named operations over the state: the frame buffer, raising an event, the frame of a step, the
outputs, the resets. Raising an event is XBFS's only exception mechanism (60_exceptions.md R231, R235): it saves
nothing, redirects nothing, and nothing returns from it (R237). -/

namespace Sys2Proof.Machine

/-- What a step answers. -/
abbrev Result := Host.Outcome State Fault Refusal

/-! ### The frame buffer -/

/-- The byte listed at a position; none where nothing was written. -/
def Memory.read? : Memory → Nat → Option Byte
  | [], _ => none
  | (b, v) :: m, a => if a = b then some v else Memory.read? m a

/-- Stores one byte, keeping the positions strictly rising. No entry is ever removed: an unlisted byte holds no
defined value, so no byte equals it (log 5). -/
def Memory.write : Memory → Nat → Byte → Memory
  | [], a, v => [(a, v)]
  | (b, u) :: m, a, v =>
    if a < b then (a, v) :: (b, u) :: m
    else if a = b then (a, v) :: m
    else (b, u) :: Memory.write m a v

/-- Every position listed is above `lo`, and the positions rise strictly. -/
def Memory.risesAbove : Nat → Memory → Bool
  | _, [] => true
  | lo, (a, _) :: m => decide (lo ≤ a) && Memory.risesAbove (a + 1) m

/-- The canonical form: strictly rising positions, all of them in `FBUF` (R60). -/
def Memory.wf (m : Memory) : Bool :=
  Memory.risesAbove 0 m && m.all fun c => decide (c.1 < Config.fbufSize)

/-- `MemRead(a, 1)` (R11, R60). A byte at or past `FIDX`, or never written, is a free value (R23, 93 U1, U2). -/
def State.byteAt (s : State) (a : Nat) : Byte :=
  if a < s.fidx.toNat then
    match s.fbuf.read? a with
    | some b => b
    | none => Config.freeByte s.draws a
  else Config.freeByte s.draws a

/-- `MemWrite(a, 1, v)` at a position below 258 (R11, R60). -/
def State.storeByte (a : Nat) (v : Byte) (s : State) : State :=
  { s with fbuf := s.fbuf.write a v }

/-- The payload of the frame in `FBUF`, bytes 4 to 3+`CUR_LEN` (R144). -/
def State.payload (s : State) : List Byte :=
  (List.range s.curLen.toNat).map fun j => s.byteAt (4 + j)

/-- The payload ends inside `FBUF`; always so in a reachable state, where `CUR_LEN <= 254` (R117). -/
abbrev State.PayloadFits (s : State) : Prop := 4 + s.curLen.toNat ≤ Config.fbufSize

/-! ### Events -/

/-- `raise E()`: sets the sticky bit; `LAST_CAUSE` follows at the end of the step (R231, R233). -/
def State.raise (e : EventCode) (s : State) : State :=
  { s with events := s.events ||| e.bit, raised := e :: s.raised }

/-- Raises an event if a condition holds. -/
def State.raiseIf (c : Bool) (e : EventCode) (s : State) : State :=
  if c then s.raise e else s

/-- `discard()`: counts and reports one byte thrown away (R115). -/
def State.discard (s : State) : State :=
  State.raise .discard { s with discardCnt := s.discardCnt + 1 }

/-! ### Outputs and the frame of a step -/

/-- The level of the interrupt output (R236). -/
def State.irq (s : State) : Bool := s.events &&& s.irqEn != 0

/-- `emit`: appends an event to the step's outputs (R11, R13). -/
def State.emit (e : OutEvent) (s : State) : State :=
  { s with out := { s.out with emitted := s.out.emitted ++ [e] } }

/-- The word a READ returns (R13, R210). -/
def State.putRdata (v : Word) (s : State) : State :=
  { s with out := { s.out with rdata := some v } }

/-- A step begins with nothing raised and no output (R13, R233). -/
def State.beginStep (s : State) : State :=
  { s with raised := [], out := ⟨none, [], s.irq⟩ }

/-- A step ends with the `LAST_CAUSE` update and the evaluation of `irq` (R233, R236). -/
def State.endStep (s : State) : State :=
  { s with lastCause := causeAfter s.raised s.lastCause, out := { s.out with irq := s.irq } }

/-- One whole step around the effect of its command; a stop is passed on. -/
def runStep (effect : State → Result) (s : State) : Result :=
  match effect s.beginStep with
  | .next t => .next t.endStep
  | .fault r => .fault r
  | .refused r => .refused r

/-- Appends a finished step's outputs to the observation of the run (R13, R72). -/
def observe : Result → Result
  | .next t => .next { t with trace := t.trace ++ [t.out] }
  | .fault r => .fault r
  | .refused r => .refused r

/-- The events emitted in a run so far, in emission order (R13). -/
def State.emitted (s : State) : List OutEvent := s.trace.flatMap (·.emitted)

/-- What `FRAME_OUT_PORT` holds after a run: every emitted event was handed to it, in emission order (R8, R145, R190;
log 15). -/
def State.portAfter {Port : Type} (port : Config.FrameOutPort OutEvent Port) (s : State) : Port :=
  s.emitted.foldl port.accept port.idle

/-! ### Resets -/

/-- `soft_reset()` (R214): everything but `CKSEL`, `IRQ_EN` and the content of `FBUF`. -/
def State.softReset (s : State) : State :=
  { s with
    fst := .m0, sync := false, fidx := 0, curLen := 0, acc := 0, skipRem := 0
    events := 0, lastCause := 0
    discardCnt := 0, resyncCnt := 0, synclossCnt := 0, frameCnt := 0, ckerrCnt := 0, extlenCnt := 0
    lastFrame := 0, recStatus := 0, recSeq := 0, avail := 0, fields := FieldRegs.zero }

/-- The hardware reset (R260), with the inputs that are still to come. It emits nothing; the outputs of the steps
before it stay as they were (R72), and the next free draws are fresh ones (logs 13, 17). -/
def State.hardReset (rest : List Input) (s : State) : State :=
  { State.reset with trace := s.trace, inputs := rest, draws := s.draws + 1 }

end Sys2Proof.Machine
end

