-- ==== Sys2Proof/Machine/TlvParser.lean ====
section
/-! DEFINITION. The TLV record parser (42_tlv_parser.md): one pass of the decode loop for a record, which is the
meaning of the table's TLV rows, the loop, and the record commit. -/

namespace Sys2Proof.Machine

/-- What every pass over a whole record does: it counts the record and advances by `3 + L` (R161). -/
def TlvWork.advance (v : List Byte) (w : TlvWork) : TlvWork :=
  { w with nrec := w.nrec + 1, off := w.off + 3 + v.length }

/-- One pass over a record of known field `f`: too short, it sets `sh` and extracts nothing (R166); else it extracts
the field and sets its availability bit, and `lg` if the value is too long (R161, R167, R168). -/
def TlvWork.known (f : Field) (v : List Byte) (w : TlvWork) : TlvWork :=
  let w := w.advance v
  if v.length < f.size then { w with sh := true }
  else
    { w with
      lg := w.lg || decide (f.size < v.length)
      regs := extract v w.regs f
      av := w.av ||| (1#17 <<< f.number) }

/-- One pass over a record of an unknown id: skipped, and reported (R163). -/
def TlvWork.unknown (id : Half) (v : List Byte) (w : TlvWork) : TlvWork :=
  let w := w.advance v
  { w with un := true, lastunk := id }

/-- One pass over a whole record (R161). -/
def TlvWork.pass (id : Half) (v : List Byte) (w : TlvWork) : TlvWork :=
  match Field.ofId id with
  | some f => w.known f v
  | none => w.unknown id v

/-- The decode loop from offset `o` on, with `fuel` passes at most (R161, R164, R165). -/
def tlvLoop : Nat → List Byte → TlvWork → TlvWork
  | 0, _, w => w
  | fuel + 1, p, w =>
    match fetchRecord (p.drop w.off) with
    | .done => w
    | .headerShort => { w with tr := true }
    | .valueShort => { w with nrec := w.nrec + 1, tr := true }
    | .record id v => tlvLoop fuel p (w.pass id v)

/-- `tlv_decode(P)` (R161). Every pass advances by at least 3, so `|P| + 1` passes are enough. -/
def tlvDecode (p : List Byte) : TlvWork :=
  tlvLoop (p.length + 1) p TlvWork.init

/-- `record_commit(P)` (R162). The working set is decoded afresh and cleared after use: it is local to the commit
(R232; log 12). -/
def State.recordCommit (p : List Byte) (s : State) : State :=
  let s := { s with work := tlvDecode p }
  let w := s.work
  let s := s.raiseIf (s.recStatus.getLsbD 0) .recOverrun
  let s := { s with
    fields := w.regs, avail := w.av.setWidth 32, recStatus := packRecStatus w, recSeq := s.recSeq + 1 }
  let s := s.raise .recDone
  let s := s.raiseIf w.tr .trunc
  let s := s.raiseIf w.un .unknownId
  let s := s.raiseIf w.sh .lenShort
  let s := s.raiseIf w.lg .lenLong
  let s := s.emit (.recordOut s.recSeq s.avail s.recStatus s.fields)
  { s with work := TlvWork.init }

/-! ### The meanings of the TLV rows: one pass on the working set -/

/-- TLV 0x1020 (R171). -/
def execTlvPktCnt (v : List Byte) (s : State) : Result :=
  .next { s with work := s.work.known .pktCnt v }

/-- TLV 0x1060 (R172). -/
def execTlvSampleTime (v : List Byte) (s : State) : Result :=
  .next { s with work := s.work.known .sampleTime v }

/-- TLV 0x1010 (R173). -/
def execTlvUtc (v : List Byte) (s : State) : Result :=
  .next { s with work := s.work.known .utc v }

/-- TLV 0x2030 (R174). -/
def execTlvEuler (v : List Byte) (s : State) : Result :=
  .next { s with work := s.work.known .euler v }

/-- TLV 0x2010 (R175). -/
def execTlvQuat (v : List Byte) (s : State) : Result :=
  .next { s with work := s.work.known .quat v }

/-- TLV 0x4020 (R176). -/
def execTlvAcc (v : List Byte) (s : State) : Result :=
  .next { s with work := s.work.known .acc v }

/-- TLV 0x4030 (R177). -/
def execTlvFacc (v : List Byte) (s : State) : Result :=
  .next { s with work := s.work.known .facc v }

/-- TLV 0x8020 (R178). -/
def execTlvRot (v : List Byte) (s : State) : Result :=
  .next { s with work := s.work.known .rot v }

/-- TLV 0xC020 (R179). -/
def execTlvMag (v : List Byte) (s : State) : Result :=
  .next { s with work := s.work.known .mag v }

/-- TLV 0x5042 (R180). -/
def execTlvLatLon (v : List Byte) (s : State) : Result :=
  .next { s with work := s.work.known .latLon v }

/-- TLV 0x5022 (R181). -/
def execTlvAlt (v : List Byte) (s : State) : Result :=
  .next { s with work := s.work.known .alt v }

/-- TLV 0xD012 (R182). -/
def execTlvVel (v : List Byte) (s : State) : Result :=
  .next { s with work := s.work.known .vel v }

/-- TLV 0xE020 (R183). -/
def execTlvStatusWord (v : List Byte) (s : State) : Result :=
  .next { s with work := s.work.known .statusWord v }

/-- TLV 0x0810 (R184). -/
def execTlvTemp (v : List Byte) (s : State) : Result :=
  .next { s with work := s.work.known .temp v }

/-- TLV 0x3010 (R185). -/
def execTlvBaro (v : List Byte) (s : State) : Result :=
  .next { s with work := s.work.known .baro v }

/-- TLV 0x4010 (R186). -/
def execTlvDv (v : List Byte) (s : State) : Result :=
  .next { s with work := s.work.known .dv v }

/-- TLV 0x8030 (R187). -/
def execTlvDq (v : List Byte) (s : State) : Result :=
  .next { s with work := s.work.known .dq v }

/-- A TLV record of an unknown id (R163). -/
def execTlvUnknown (id : Half) (v : List Byte) (s : State) : Result :=
  .next { s with work := s.work.unknown id v }

end Sys2Proof.Machine
end

