-- ==== Sys2Proof/Machine/FrameCommit.lean ====
section
/-! DEFINITION. The checksum verdict and the frame commit (41_checksum.md R143 to R147), and the meanings of the
table's MID rows. -/

namespace Sys2Proof.Machine

/-- The end of every commit: the frame is emptied and `fst` returns to `M0`; `SYNC` is kept (R144). The bytes of
`FBUF` now hold no defined value, so the next free draws are fresh (logs 5, 13). -/
def State.closeFrame (s : State) : State :=
  { s with fidx := 0, curLen := 0, acc := 0, fst := .m0, draws := s.draws + 1 }

/-- `LAST_FRAME` at a commit that took the checksum byte `ck` (R35, R144). -/
def State.noteFrame (mid ck : Byte) (s : State) : State :=
  { s with lastFrame := packLastFrame (ckExpected s.acc s.cksel) ck s.curLen mid }

/-- A commit with a checksum mismatch (R144, R147). -/
def State.rejectFrame (mid ck : Byte) (s : State) : State :=
  let s := s.noteFrame mid ck
  let s := { s with ckerrCnt := s.ckerrCnt + 1 }
  (s.raise .ckerr).closeFrame

/-- A commit with a valid checksum: the frame is counted and emitted, and the payload of a measurement frame is
committed as a record (R144, R145, R146). A payload that ends outside `FBUF` stops (log 6). -/
def State.acceptFrame (mid ck : Byte) (measurement : Bool) (s : State) : Result :=
  if s.PayloadFits then
    let p := s.payload
    let s := s.noteFrame mid ck
    let s := { s with frameCnt := s.frameCnt + 1 }
    let s := s.raise .frameOk
    let s := s.emit (.frameOut mid s.curLen p ck)
    let s := if measurement then s.recordCommit p else s
    .next s.closeFrame
  else .fault (.noSuchByte Config.fbufSize)

/-- `commit(ck)` (R144). -/
def State.commit (ck : Byte) (s : State) : Result :=
  let mid := s.byteAt 2
  if ck ≠ ckExpected s.acc s.cksel then .next (s.rejectFrame mid ck)
  else s.acceptFrame mid ck (decide (mid = Config.measMid))

/-- MID 0x36: the valid commit of a measurement frame, whose checksum byte is the expected one (R90, R144; log 7). -/
def execFrameMeas (s : State) : Result :=
  runStep (fun t => t.acceptFrame Config.measMid (ckExpected t.acc t.cksel) true) s

/-- Another MID: the valid commit of a frame that is not parsed (R90, R146; log 7). -/
def execFrameOther (mid : Byte) (s : State) : Result :=
  runStep (fun t => t.acceptFrame mid (ckExpected t.acc t.cksel) false) s

end Sys2Proof.Machine
end

