-- ==== Sys2Proof/Machine/FrameSync.lean ====
section
/-! DEFINITION. The frame synchronizer (40_frame_sync.md): one operation per state rule, the BYTE command and the
table's LEN rows. -/

namespace Sys2Proof.Machine

/-- The loss of synchronization at a marker mismatch, if synchronized (R112, R114). -/
def State.loseSync (s : State) : State :=
  if s.sync then State.raise .syncLost { s with sync := false, synclossCnt := s.synclossCnt + 1 } else s

/-- The first marker byte becomes frame byte 0 (R111). -/
def State.firstMarker (s : State) : State :=
  { s.storeByte 0 Config.marker0 with fidx := 1, fst := .m1 }

/-- A byte that is no first marker byte is discarded (R112). -/
def State.noMarker (s : State) : State :=
  s.loseSync.discard

/-- The marker is complete; a hunt acquires synchronization (R113). -/
def State.secondMarker (s : State) : State :=
  let s := { s.storeByte 1 Config.marker1 with fidx := 2, acc := 0, fst := .mid }
  if s.sync then s else State.raise .syncAcq { s with sync := true, resyncCnt := s.resyncCnt + 1 }

/-- The buffered first marker byte began no marker: it is discarded and `b` is examined again (R114). -/
def State.brokenMarker (b : Byte) (s : State) : State :=
  let s := s.loseSync.discard
  let s := { s with fidx := 0 }
  if b = Config.marker0 then s.firstMarker else { s.discard with fst := .m0 }

/-- The message-id byte (R116). -/
def State.midByte (b : Byte) (s : State) : State :=
  { s.storeByte 2 b with fidx := 3, acc := s.acc + b, fst := .len }

/-- The LEN byte of a standard frame (R117). -/
def State.standardLen (b : Byte) (s : State) : State :=
  { s.storeByte 3 b with
    fidx := 4, acc := s.acc + b, curLen := b, fst := if b = 0 then .cks else .pay }

/-- The extended-length pattern: the frame is reported and will be skipped (R118). -/
def State.extendedLen (s : State) : State :=
  let s := State.raise .extlen { s with extlenCnt := s.extlenCnt + 1 }
  { s with fidx := 0, acc := 0, fst := .xlh }

/-- A payload byte (R119). A store outside `FBUF` stops (log 6). -/
def State.payloadByte (b : Byte) (s : State) : Result :=
  if s.fidx.toNat < Config.fbufSize then
    let s := { s.storeByte s.fidx.toNat b with fidx := s.fidx + 1, acc := s.acc + b }
    .next (if s.fidx = 4 + s.curLen.setWidth 9 then { s with fst := .cks } else s)
  else .fault (.noSuchByte s.fidx.toNat)

/-- The high byte of an extended length (R121). -/
def State.extHigh (b : Byte) (s : State) : State :=
  { s with skipRem := b.setWidth 17 <<< 8, fst := .xll }

/-- The low byte of an extended length, and one more byte for the checksum (R122). -/
def State.extLow (b : Byte) (s : State) : State :=
  { s with skipRem := (s.skipRem ||| b.setWidth 17) + 1, fst := .xsk }

/-- A skipped byte of an extended frame (R123). -/
def State.extSkip (s : State) : State :=
  let s := { s with skipRem := s.skipRem - 1 }
  if s.skipRem = 0 then { s with fst := .m0 } else s

/-- The state rule that a BYTE runs, chosen by `fst` (R110). -/
def State.takeByte (b : Byte) (s : State) : Result :=
  match s.fst with
  | .m0 => .next (if b = Config.marker0 then s.firstMarker else s.noMarker)
  | .m1 => .next (if b = Config.marker1 then s.secondMarker else s.brokenMarker b)
  | .mid => .next (s.midByte b)
  | .len => .next (if b = Config.extLen then s.extendedLen else s.standardLen b)
  | .pay => s.payloadByte b
  | .cks => s.commit b
  | .xlh => .next (s.extHigh b)
  | .xll => .next (s.extLow b)
  | .xsk => .next s.extSkip

/-- `BYTE d` (R110). -/
def execByte (d : Byte) (s : State) : Result :=
  runStep (State.takeByte d) s

/-- The LEN byte of a standard frame (R88, R117; log 7). -/
def execLenStd (n : Byte) (s : State) : Result :=
  runStep (fun t => .next (t.standardLen n)) s

/-- The LEN byte 0xFF (R88, R118; log 7). -/
def execLenExt (s : State) : Result :=
  runStep (fun t => .next t.extendedLen) s

end Sys2Proof.Machine
end

