-- ==== Sys2Proof/Machine/Regs.lean ====
section
/-! DEFINITION. The host register file: access types, names, `read_reg` and `write_reg` (10_state.md R43, R44,
44_host_access.md R211, R213). -/

namespace Sys2Proof.Machine

/-- The access types of R44; `recStatus` is R43's "bit 0 W1C, rest RO". -/
inductive Access where
  | rw | ro | w1c | wc | recStatus | unmapped
  deriving DecidableEq, Repr

/-- The access type of an index (R43). -/
def access (i : Nat) : Access :=
  if i = 0 ∨ i = 3 then .rw
  else if i = 2 then .w1c
  else if 4 ≤ i ∧ i ≤ 10 then .wc
  else if i = 12 then .recStatus
  else if i ≤ Config.lastMapped then .ro
  else .unmapped

/-- The field registers in index order, 17 to 62 (R41). -/
def FieldRegs.toList (w : FieldRegs) : List Word :=
  [w.pktCnt, w.sampleTime, w.utcNs, w.utcYmd, w.utcHms,
   w.euler0, w.euler1, w.euler2, w.quat0, w.quat1, w.quat2, w.quat3,
   w.acc0, w.acc1, w.acc2, w.facc0, w.facc1, w.facc2, w.rot0, w.rot1, w.rot2, w.mag0, w.mag1, w.mag2,
   w.latHi, w.latLo, w.lonHi, w.lonLo, w.altHi, w.altLo,
   w.vel0Hi, w.vel0Lo, w.vel1Hi, w.vel1Lo, w.vel2Hi, w.vel2Lo,
   w.statusWord, w.temp, w.baro, w.dv0, w.dv1, w.dv2, w.dq0, w.dq1, w.dq2, w.dq3]

/-- `read_reg(i)` of a mapped index: the value `x[i]` (R211). -/
def State.regValue (s : State) : Nat → Word
  | 0 => boolWord s.cksel <<< 1
  | 1 => packStatus s.fidx s.curLen s.fst s.sync
  | 2 => s.events
  | 3 => s.irqEn
  | 4 => s.lastCause
  | 5 => s.discardCnt
  | 6 => s.resyncCnt
  | 7 => s.synclossCnt
  | 8 => s.frameCnt
  | 9 => s.ckerrCnt
  | 10 => s.extlenCnt
  | 11 => s.lastFrame
  | 12 => s.recStatus
  | 13 => s.recSeq
  | 14 => s.avail
  | 15 => splitStatus s.fields.statusWord
  | 16 => packDbg s.acc s.skipRem
  | n => s.fields.toList.getD (n - 17) 0

/-- `read_reg(i)`: the value of a mapped index; 0 and `BAD_REG` for an unmapped one (R211, R220). -/
def State.readReg (i : Nat) (s : State) : State :=
  if i ≤ Config.lastMapped then s.putRdata (s.regValue i)
  else (s.putRdata 0).raise .badReg

/-- `write_reg(i, v)` (R213 to R219). -/
def State.writeReg (i : Nat) (v : Word) (s : State) : State :=
  match i with
  | 0 =>
    if v.getLsbD 0 then State.softReset { s with cksel := v.getLsbD 1 } else { s with cksel := v.getLsbD 1 }
  | 2 => { s with events := s.events &&& ~~~(v &&& Config.eventMask) }
  | 3 => { s with irqEn := v &&& Config.eventMask }
  | 4 => { s with lastCause := 0 }
  | 5 => { s with discardCnt := 0 }
  | 6 => { s with resyncCnt := 0 }
  | 7 => { s with synclossCnt := 0 }
  | 8 => { s with frameCnt := 0 }
  | 9 => { s with ckerrCnt := 0 }
  | 10 => { s with extlenCnt := 0 }
  | 12 => if v.getLsbD 0 then { s with recStatus := s.recStatus &&& ~~~1#32 } else s
  | _ => s.raise .badReg

/-- The names of the mapped registers, in index order (R41, R43). -/
def regNames : List String :=
  ["CTRL", "STATUS", "EVENTS", "IRQ_EN", "LAST_CAUSE", "DISCARD_CNT", "RESYNC_CNT", "SYNCLOSS_CNT", "FRAME_CNT",
   "CKERR_CNT", "EXTLEN_CNT", "LAST_FRAME", "REC_STATUS", "REC_SEQ", "AVAIL", "STATUS_DEC", "DBG",
   "PKT_CNT", "SAMPLE_TIME", "UTC_NS", "UTC_YMD", "UTC_HMS", "EULER_0", "EULER_1", "EULER_2",
   "QUAT_0", "QUAT_1", "QUAT_2", "QUAT_3", "ACC_0", "ACC_1", "ACC_2", "FACC_0", "FACC_1", "FACC_2",
   "ROT_0", "ROT_1", "ROT_2", "MAG_0", "MAG_1", "MAG_2", "LAT_HI", "LAT_LO", "LON_HI", "LON_LO", "ALT_HI", "ALT_LO",
   "VEL0_HI", "VEL0_LO", "VEL1_HI", "VEL1_LO", "VEL2_HI", "VEL2_LO", "STATUS_WORD", "TEMP", "BARO",
   "DV_0", "DV_1", "DV_2", "DQ_0", "DQ_1", "DQ_2", "DQ_3"]

end Sys2Proof.Machine
end

