-- ==== Sys2Proof/Machine/HostAccess.lean ====
section
/-! DEFINITION. The meanings of RD, WR and the reserved command words (44_host_access.md). -/

namespace Sys2Proof.Machine

/-- `RD i` (R210). -/
def execRd (i : BitVec 7) (s : State) : Result :=
  runStep (fun t => .next (t.readReg i.toNat)) s

/-- `WR i, v` (R212). -/
def execWr (i : BitVec 7) (wdata : Word) (s : State) : Result :=
  runStep (fun t => .next (t.writeReg i.toNat wdata)) s

/-- A reserved command word: `BAD_CMD`, `rdata = 0`, nothing else (R221; log 3 on `rdata`). -/
def State.badCommand (s : State) : State :=
  (s.putRdata 0).raise .badCmd

/-- A reserved word with `cmd[15:14] = 11` (R84, R221). -/
def execReservedOp3 (_x : BitVec 14) (s : State) : Result :=
  runStep (fun t => .next t.badCommand) s

/-- A reserved word of the BYTE class (R84, R221). -/
def execReservedByte (_x : BitVec 14) (s : State) : Result :=
  runStep (fun t => .next t.badCommand) s

/-- A reserved word of the READ class (R84, R221). -/
def execReservedRead (_x : BitVec 14) (s : State) : Result :=
  runStep (fun t => .next t.badCommand) s

/-- A reserved word of the WRITE class (R84, R221). -/
def execReservedWrite (_x : BitVec 14) (s : State) : Result :=
  runStep (fun t => .next t.badCommand) s

end Sys2Proof.Machine
end

