-- ==== Sys2Proof/Machine/Dispatch.lean ====
section
/-! DEFINITION. One arm per row of spec/opcode_table.json. -/

namespace Sys2Proof.Machine

def exec (i : Instr) (s : State) : Host.Outcome State Fault Refusal :=
  match i with
  | .byte d => Sys2Proof.Machine.execByte d s
  | .rd r => Sys2Proof.Machine.execRd r s
  | .wr r wdata => Sys2Proof.Machine.execWr r wdata s
  | .reservedOp3 x => Sys2Proof.Machine.execReservedOp3 x s
  | .reservedByte x => Sys2Proof.Machine.execReservedByte x s
  | .reservedRead x => Sys2Proof.Machine.execReservedRead x s
  | .reservedWrite x => Sys2Proof.Machine.execReservedWrite x s
  | .frameMeas => Sys2Proof.Machine.execFrameMeas s
  | .frameOther mid => Sys2Proof.Machine.execFrameOther mid s
  | .lenStd n => Sys2Proof.Machine.execLenStd n s
  | .lenExt => Sys2Proof.Machine.execLenExt s
  | .tlvPktCnt v => Sys2Proof.Machine.execTlvPktCnt v s
  | .tlvSampleTime v => Sys2Proof.Machine.execTlvSampleTime v s
  | .tlvUtc v => Sys2Proof.Machine.execTlvUtc v s
  | .tlvEuler v => Sys2Proof.Machine.execTlvEuler v s
  | .tlvQuat v => Sys2Proof.Machine.execTlvQuat v s
  | .tlvAcc v => Sys2Proof.Machine.execTlvAcc v s
  | .tlvFacc v => Sys2Proof.Machine.execTlvFacc v s
  | .tlvRot v => Sys2Proof.Machine.execTlvRot v s
  | .tlvMag v => Sys2Proof.Machine.execTlvMag v s
  | .tlvLatLon v => Sys2Proof.Machine.execTlvLatLon v s
  | .tlvAlt v => Sys2Proof.Machine.execTlvAlt v s
  | .tlvVel v => Sys2Proof.Machine.execTlvVel v s
  | .tlvStatusWord v => Sys2Proof.Machine.execTlvStatusWord v s
  | .tlvTemp v => Sys2Proof.Machine.execTlvTemp v s
  | .tlvBaro v => Sys2Proof.Machine.execTlvBaro v s
  | .tlvDv v => Sys2Proof.Machine.execTlvDv v s
  | .tlvDq v => Sys2Proof.Machine.execTlvDq v s
  | .tlvUnknown id v => Sys2Proof.Machine.execTlvUnknown id v s

end Sys2Proof.Machine
end

