-- ==== Sys2Proof/Machine/Assembler.lean ====
section
/-! DEFINITION. The assembler commands and pseudo-instructions of the spec's programs, as lists of inputs
(30_encoding.md R95, R96), and same-cycle arrival (70_reset_and_hazards.md R268). -/

namespace Sys2Proof.Machine

/-- A register operand: a name of R41 and R43, or a decimal index (R95). -/
inductive RegRef where
  | name (n : String)
  | index (i : BitVec 7)
  deriving DecidableEq, Repr

/-- The register names with their indices (R41, R43). -/
def regTable : List (String × Nat) :=
  regNames.zip (List.range regNames.length)

/-- `idx(reg)`: the index of a register operand; none for a name that is no register's (R95). -/
def RegRef.idx : RegRef → Option (BitVec 7)
  | .index i => some i
  | .name n => (regTable.lookup n).map (BitVec.ofNat 7)

/-- The command word of a BYTE (R95). -/
def byteInput (b : Byte) : Input := .command (b.setWidth 16) 0

/-- The command word of a READ (R95). -/
def readInput (i : BitVec 7) : Input := .command (0x4000#16 ||| i.setWidth 16) 0

/-- The command word and side operand of a WRITE (R95). -/
def writeInput (i : BitVec 7) (v : Word) : Input := .command (0x8000#16 ||| i.setWidth 16) v

/-- `FEED b0, ..., bk`: one BYTE command per byte, in order (R96). -/
def feed (bs : List Byte) : List Input := bs.map byteInput

/-- The bytes of a frame before its checksum (R87, R96). -/
def frameBody (mid : Byte) (payload : List Byte) : List Byte :=
  Config.marker0 :: Config.marker1 :: mid :: BitVec.ofNat 8 payload.length :: payload

/-- A whole frame on the wire, with the checksum of coverage `k` (R87, R96). -/
def wireFrame (k : Bool) (mid : Byte) (payload : List Byte) : List Byte :=
  frameBody mid payload ++ [ckCompute (frameBody mid payload) k]

/-- The wire frame a consumer rebuilds from a `FrameOut` (R145); none for a record. -/
def OutEvent.wire : OutEvent → Option (List Byte)
  | .frameOut mid len payload ck => some (Config.marker0 :: Config.marker1 :: mid :: len :: (payload ++ [ck]))
  | .recordOut _ _ _ _ => none

/-- The commands and pseudo-instructions (R95, R96). `frame` with `k = true` is `FRAME.1`. A `TLV` pseudo stands in a
payload list only; its bytes are `recordBytes id v`. -/
inductive Asm where
  | byte (imm : Byte)
  | rd (reg : RegRef)
  | wr (reg : RegRef) (imm : Word)
  | feed (bs : List Byte)
  | frame (k : Bool) (mid : Byte) (payload : List Byte)
  | softReset (k : Bool)
  | ack
  | clrev (m : Word)
  deriving DecidableEq, Repr

/-- The inputs a source line stands for; none for an unknown register name or a payload over 254 bytes (R95, R96). -/
def Asm.expand : Asm → Option (List Input)
  | .byte imm => some [byteInput imm]
  | .rd reg => reg.idx.map fun i => [readInput i]
  | .wr reg imm => reg.idx.map fun i => [writeInput i imm]
  | .feed bs => some (Sys2Proof.Machine.feed bs)
  | .frame k mid payload =>
    if payload.length ≤ Config.maxPayload then some (Sys2Proof.Machine.feed (wireFrame k mid payload)) else none
  | .softReset k => some [writeInput 0 ((boolWord k <<< 1) ||| 1#32)]
  | .ack => some [writeInput 12 1]
  | .clrev m => some [writeInput 2 m]

/-- A program: its lines' inputs one after another (R95, R96). -/
def assemble : List Asm → Option (List Input)
  | [] => some []
  | a :: as =>
    match a.expand, assemble as with
    | some xs, some ys => some (xs ++ ys)
    | _, _ => none

/-- The inputs of one clock cycle in which a register access and a stream byte may both arrive: the access is the
earlier step, the BYTE the later one (R268). -/
def sameCycle (access : Option Input) (byte : Option Byte) : List Input :=
  access.toList ++ (byte.map byteInput).toList

end Sys2Proof.Machine
end

