-- ==== Sys2Proof/Machine/Present.lean ====
section
/-! DEFINITION. How an encoded instruction is placed where the very next step runs it (log 9). -/

namespace Sys2Proof.Machine

/-- A list of bytes from position `a` on, as frame-buffer entries. -/
def cellsFrom : Nat → List Byte → Memory
  | _, [] => []
  | a, b :: bs => (a, b) :: cellsFrom (a + 1) bs

/-- The synchronized state `CKS` with a whole frame but for its checksum byte in `FBUF`, and the right checksum byte
presented (R23, R42, R142, R143). -/
def State.holdingFrame (mid : Byte) (payload : List Byte) (s : State) : State :=
  let len := BitVec.ofNat 8 payload.length
  let acc := mid + len + byteSum payload
  { s with
    fst := .cks, sync := true, fbuf := cellsFrom 0 (frameBody mid payload), fidx := 4 + len.setWidth 9
    curLen := len, acc := acc, skipRem := 0
    inputs := byteInput (ckExpected acc s.cksel) :: s.inputs }

/-- The synchronized state `LEN` of a frame with MID 0, and the LEN byte presented (R23, R42). -/
def State.awaitingLen (b : Byte) (s : State) : State :=
  { s with
    fst := .len, sync := true, fbuf := cellsFrom 0 [Config.marker0, Config.marker1, 0], fidx := 3
    curLen := 0, acc := 0, skipRem := 0
    inputs := byteInput b :: s.inputs }

/-- Places an encoded instruction where the next step runs it: a command word as the next input; a LEN byte as the
next byte in state `LEN`; a MID byte in a held frame with an empty payload; a TLV record as the payload of a held
measurement frame (log 9). -/
def State.present (e : Encoded) (s : State) : State :=
  match e with
  | .command cmd wdata => { s with inputs := .command cmd wdata :: s.inputs }
  | .lenByte b => s.awaitingLen b
  | .midByte b => s.holdingFrame b []
  | .record bytes => s.holdingFrame Config.measMid bytes

end Sys2Proof.Machine
end

