-- ==== Sys2Proof/Machine/Step.lean ====
section
/-! DEFINITION. One step: the next input is taken (00_scope.md R12, 20_memory.md R70). -/

namespace Sys2Proof.Machine

/-- One step. A command is decoded and run, and its outputs join the observation (R12, R13, R85); a reset acts
between two commands (R260); with nothing presented the block is idle and keeps all state (R244). -/
def step (s : State) : Host.Outcome State Fault Refusal :=
  match s.inputs with
  | [] => .next s
  | .rst :: rest => .next (s.hardReset rest)
  | .command cmd wdata :: rest => observe (exec (decodeCommand cmd wdata) { s with inputs := rest })

/-- The state in which the very next step runs the instruction of an opcode-table word (logs 8, 9). A word of a
width the table does not have changes nothing. -/
def State.withFetchWord (s : State) (nbits w : Nat) : State :=
  match tableEncoding nbits w with
  | some e => s.present e
  | none => s

end Sys2Proof.Machine
end

