-- ==== Sys2Proof/Safety.lean ====
section
/-! DEFINITION. What counts as a safe state and a safe run, and the terms in which statements speak of the stream and
of the observation of a run (00_scope.md R13). -/

namespace Sys2Proof.Machine

/-- The bytes of the frame in progress, `FBUF[0 .. FIDX-1]` (R23). -/
def State.heldBytes (s : State) : List Byte :=
  (List.range s.fidx.toNat).map s.byteAt

/-- `FIDX` and `CUR_LEN` by state of `fst` (R23, R42, R117). -/
def State.PositionOk (s : State) : Prop :=
  match s.fst with
  | .m0 => s.fidx = 0 ∧ s.curLen = 0
  | .m1 => s.fidx = 1 ∧ s.curLen = 0
  | .mid => s.fidx = 2 ∧ s.curLen = 0
  | .len => s.fidx = 3 ∧ s.curLen = 0
  | .pay => 4 ≤ s.fidx.toNat ∧ s.fidx.toNat ≤ 3 + s.curLen.toNat ∧ s.curLen.toNat ≤ Config.maxPayload
  | .cks => s.fidx.toNat = 4 + s.curLen.toNat ∧ s.curLen.toNat ≤ Config.maxPayload
  | .xlh => s.fidx = 0 ∧ s.curLen = 0
  | .xll => s.fidx = 0 ∧ s.curLen = 0
  | .xsk => s.fidx = 0 ∧ s.curLen = 0

/-- `SKIP_REM` by state of `fst` (R42, R121 to R123). -/
def State.SkipOk (s : State) : Prop :=
  match s.fst with
  | .xll => ∃ hi : Byte, s.skipRem = hi.setWidth 17 <<< 8
  | .xsk => 1 ≤ s.skipRem.toNat ∧ s.skipRem.toNat ≤ 65536
  | .m0 | .m1 | .mid | .len | .pay | .cks | .xlh => s.skipRem = 0

/-- `SYNC = 1` in every state from `MID` to `XSK` (R124). -/
def State.SyncOk (s : State) : Prop :=
  match s.fst with
  | .m0 | .m1 => True
  | .mid | .len | .pay | .cks | .xlh | .xll | .xsk => s.sync = true

/-- The header bytes held: the marker, and the LEN byte once taken (R23, R111, R113, R117). -/
def State.HeaderOk (s : State) : Prop :=
  (1 ≤ s.fidx.toNat → s.fbuf.read? 0 = some Config.marker0) ∧
  (2 ≤ s.fidx.toNat → s.fbuf.read? 1 = some Config.marker1) ∧
  (4 ≤ s.fidx.toNat → s.fbuf.read? 3 = some s.curLen)

/-- `LAST_CAUSE` is 0 or a valid cause of code 0 to 10 (R28, R233). -/
def State.CauseOk (s : State) : Prop :=
  s.lastCause = 0 ∨ ∃ c : Nat, c ≤ 10 ∧ s.lastCause = 0x80000000#32 ||| BitVec.ofNat 32 c

/-- The reserved bits of the stored registers are 0 (R26, R27, R36, R38, R41). -/
def State.ReservedOk (s : State) : Prop :=
  s.events &&& ~~~Config.eventMask = 0 ∧ s.irqEn &&& ~~~Config.eventMask = 0 ∧
  s.recStatus &&& 0x000000E0 = 0 ∧ s.avail &&& 0xFFFE0000 = 0 ∧
  s.fields.pktCnt &&& 0xFFFF0000 = 0 ∧ s.fields.utcHms &&& 0xFF000000 = 0

/-- The invariant of the machine: what the spec says of every state between two steps. -/
structure State.Inv (s : State) : Prop where
  /-- `FBUF` is in canonical form (R60). -/
  memory : s.fbuf.wf = true
  /-- Every byte of the frame in progress was written (R23). -/
  held : ∀ a, a < s.fidx.toNat → (s.fbuf.read? a).isSome = true
  position : s.PositionOk
  skip : s.SkipOk
  synced : s.SyncOk
  header : s.HeaderOk
  /-- `ACC` is the sum of the held bytes from index 2 on (R142). -/
  accSum : s.acc = byteSum (s.heldBytes.drop 2)
  cause : s.CauseOk
  reserved : s.ReservedOk
  /-- The decode state is local to a commit (R232). -/
  localWork : s.work = TlvWork.init
  /-- The `irq` output is the level after the latest step (R236). -/
  irqOut : s.out.irq = s.irq

/-- A step from this state completes: it answers a next state (R235). -/
def State.Completes (s : State) : Prop := ∃ t, step s = .next t

/-- An emitted frame. -/
def OutEvent.isFrame : OutEvent → Bool
  | .frameOut _ _ _ _ => true
  | .recordOut _ _ _ _ => false

/-- Bytes with no adjacent marker pair, the garbage of R126. -/
def NoMarker (g : List Byte) : Prop := ¬ [Config.marker0, Config.marker1] <:+: g

/-- The working set after one extracted record of declared length `len`: counted, passed over, its registers `regs`
written, its availability bit set, and `lg` if the value is longer than the layout size (R161). -/
def TlvWork.extracted (len size number : Nat) (regs : FieldRegs) (w : TlvWork) : TlvWork :=
  { w with
    nrec := w.nrec + 1, off := w.off + 3 + len, regs := regs
    av := w.av ||| BitVec.twoPow 17 number, lg := w.lg || decide (size < len) }

/-- The records of a payload, one after another on the wire (R91: packed with no padding). -/
def recordsBytes (rs : List (Half × List Byte)) : List Byte :=
  rs.flatMap fun r => recordBytes r.1 r.2

/-- The registers of every field that is not available hold 0 (R41): extracting a value of zeros changes nothing. -/
def State.AbsentZero (s : State) : Prop :=
  ∀ f : Field, s.avail.getLsbD f.number = false → extract [] s.fields f = s.fields

/-- The state with inputs presented after those pending already. -/
def State.presenting (s : State) (is : List Input) : State := { s with inputs := s.inputs ++ is }

end Sys2Proof.Machine
end

