-- ==== Sys2Proof/Certificates/Slice0/Obligations.lean ====
section
/-! DEFINITION. The statements for the provers. -/

open Sys2Proof Sys2Proof.Machine

/-! ### Steps and decoding -/

/-- A step with a command presented decodes it (R85), runs the instruction on the state with that input taken, and
adds the finished step's outputs to the observation (R13); a stop is the step's stop. -/
def Obligations.StepRunsDecodedCommand : Prop :=
  ∀ (s : State) (cmd : Half) (wdata : Word) (rest : List Input), s.inputs = .command cmd wdata :: rest →
    (∀ t, exec (decodeCommand cmd wdata) { s with inputs := rest } = .next t →
      step s = .next { t with trace := t.trace ++ [t.out] }) ∧
    (∀ r, exec (decodeCommand cmd wdata) { s with inputs := rest } = .fault r → step s = .fault r)

/-- With nothing presented the block is idle and keeps all state (R244); a hardware reset between two steps gives
R260's state, and keeps the inputs still to come and the outputs already emitted (log 17). -/
def Obligations.IdleAndHardwareReset : Prop :=
  (∀ s : State, s.inputs = [] → step s = .next s) ∧
  (∀ (s : State) (rest : List Input), s.inputs = .rst :: rest →
    step s = .next { State.reset with inputs := rest, trace := s.trace, draws := s.draws + 1 })

/-- The LEN and MID rows of the table are what a BYTE runs in `LEN`, and in `CKS` on a matching checksum byte
(R88, R90, R110, R120). -/
def Obligations.ByteRunsLenAndMidRows : Prop :=
  ∀ (s : State) (b : Byte),
    (s.fst = .len → exec (.byte b) s = exec (decodeLen b) s) ∧
    (s.fst = .cks → b = ckExpected s.acc s.cksel → exec (.byte b) s = exec (decodeMid (s.byteAt 2)) s)

/-- The TLV rows of the table are the passes of the decode loop: running a decoded record is one pass of the loop on
the working set, and nothing else changes (R92, R161). -/
def Obligations.RecordRowIsOnePass : Prop :=
  ∀ (s : State) (id : Half) (v : List Byte),
    exec (decodeRecord id v) s = .next { s with work := s.work.pass id v }

/-- Decoding an encoded well-formed instruction gives it back, for every row of the table and every operand. -/
def Obligations.DecodeOfEncode : Prop :=
  ∀ i : Instr, i.WellFormed → decode (encode i) = .ok i

/-- Decoding is total on all 65536 command words, and every word is the encoding of the one well-formed instruction
it decodes to (R84, R85). -/
def Obligations.EveryCommandWordHasOneMeaning : Prop :=
  ∀ (cmd : Half) (wdata : Word), (decodeCommand cmd wdata).WellFormed ∧
    ∃ operand, encode (decodeCommand cmd wdata) = .command cmd operand ∧
      (∀ i, decodeCommand cmd wdata = .wr i wdata → operand = wdata)

/-- Bytes that decode as a TLV record are the encoding of that record and of nothing else (R91, R92). -/
def Obligations.RecordBytesHaveOneMeaning : Prop :=
  ∀ (bytes : List Byte) (i : Instr), decode (.record bytes) = .ok i → i.WellFormed ∧ encode i = .record bytes

/-- Words written out from the encodings of R80, R88, R90 and R160 decode to what they stand for. -/
def Obligations.SpecWordsDecode : Prop :=
  decodeCommand 0b0000000011111010 0 = .byte 0xFA ∧
  decodeCommand 0b0100000000010001 0 = .rd 17 ∧
  decodeCommand 0b1000000000000010 0xFFFFFFFF = .wr 2 0xFFFFFFFF ∧
  decodeCommand 0b1100000000000000 0 = .reservedOp3 0 ∧
  decodeCommand 0b0000000111111010 0 = .reservedByte 0x1FA ∧
  decodeLen 0b11111111 = .lenExt ∧ decodeMid 0b00110110 = .frameMeas ∧
  decode (.record [0x10, 0x20, 0x02, 0x00, 0x2A]) = .ok (.tlvPktCnt [0x00, 0x2A])

/-- A word is reserved exactly when R84 says so, and then decodes to one of the four reserved rows; each of those
rows raises `BAD_CMD` and does nothing else (R84, R221). That `rdata` is 0 on each is the model's reading of R221
(log 3). -/
def Obligations.ReservedWordsOnlyRaiseBadCmd : Prop :=
  (∀ (cmd : Half) (wdata : Word),
    (cmd.extractLsb' 14 2 = 3 ∨ (cmd.extractLsb' 14 2 = 0 ∧ cmd.extractLsb' 8 6 ≠ 0) ∨
      ((cmd.extractLsb' 14 2 = 1 ∨ cmd.extractLsb' 14 2 = 2) ∧ cmd.extractLsb' 7 7 ≠ 0)) ↔
    ∃ x : BitVec 14, decodeCommand cmd wdata ∈
      [Instr.reservedOp3 x, Instr.reservedByte x, Instr.reservedRead x, Instr.reservedWrite x]) ∧
  (∀ (x : BitVec 14) (s : State) (i : Instr),
    i ∈ [Instr.reservedOp3 x, Instr.reservedByte x, Instr.reservedRead x, Instr.reservedWrite x] →
    exec i s = .next { s with
      events := s.events ||| 0x200, lastCause := 0x80000009, raised := [.badCmd]
      out := ⟨some 0, [], (s.events ||| 0x200) &&& s.irqEn != 0⟩ })

/-! ### Host register access -/

/-- `RD i`: a mapped index returns the register's value and changes nothing else; an unmapped one returns 0 and
raises `BAD_REG` (R210, R211, R220). -/
def Obligations.ReadReturnsRegister : Prop :=
  ∀ (i : BitVec 7) (s : State),
    (i.toNat ≤ 62 → exec (.rd i) s = .next { s with raised := [], out := ⟨some (s.regValue i.toNat), [], s.irq⟩ }) ∧
    (63 ≤ i.toNat → exec (.rd i) s = .next { s with
      events := s.events ||| 0x400, lastCause := 0x8000000A, raised := [.badReg]
      out := ⟨some 0, [], (s.events ||| 0x400) &&& s.irqEn != 0⟩ })

/-- The register file as a READ sees it, index by index: control, status, counters and debug (R211, R24 to R40), and
the 46 field registers (R41); and the fields of a `REC_STATUS` as a commit packs them (R36, R162). -/
def Obligations.RegisterFileLayout : Prop :=
  ∀ (s : State) (w : TlvWork),
    (packRecStatus w).toNat = w.lastunk.toNat * 2 ^ 16 + w.nrec.toNat * 2 ^ 8 + w.lg.toNat * 2 ^ 4 +
      w.sh.toNat * 2 ^ 3 + w.un.toNat * 2 ^ 2 + w.tr.toNat * 2 + 1 ∧
    (s.regValue 0).toNat = 2 * s.cksel.toNat ∧
    (s.regValue 1).toNat = s.fidx.toNat * 2 ^ 16 + s.curLen.toNat * 2 ^ 8 + s.fst.code.toNat * 2 + s.sync.toNat ∧
    (List.range 13).map (fun k => s.regValue (2 + k)) =
      [s.events, s.irqEn, s.lastCause, s.discardCnt, s.resyncCnt, s.synclossCnt, s.frameCnt, s.ckerrCnt,
       s.extlenCnt, s.lastFrame, s.recStatus, s.recSeq, s.avail] ∧
    s.regValue 15 = splitStatus (s.regValue 53) ∧
    (s.regValue 16).toNat = s.acc.toNat * 2 ^ 24 + s.skipRem.toNat ∧
    (List.range 46).map (fun k => s.regValue (17 + k)) =
      [s.fields.pktCnt, s.fields.sampleTime, s.fields.utcNs, s.fields.utcYmd, s.fields.utcHms,
       s.fields.euler0, s.fields.euler1, s.fields.euler2,
       s.fields.quat0, s.fields.quat1, s.fields.quat2, s.fields.quat3,
       s.fields.acc0, s.fields.acc1, s.fields.acc2, s.fields.facc0, s.fields.facc1, s.fields.facc2,
       s.fields.rot0, s.fields.rot1, s.fields.rot2, s.fields.mag0, s.fields.mag1, s.fields.mag2,
       s.fields.latHi, s.fields.latLo, s.fields.lonHi, s.fields.lonLo, s.fields.altHi, s.fields.altLo,
       s.fields.vel0Hi, s.fields.vel0Lo, s.fields.vel1Hi, s.fields.vel1Lo, s.fields.vel2Hi, s.fields.vel2Lo,
       s.fields.statusWord, s.fields.temp, s.fields.baro, s.fields.dv0, s.fields.dv1, s.fields.dv2,
       s.fields.dq0, s.fields.dq1, s.fields.dq2, s.fields.dq3]

/-- `WR CTRL` without `SOFT_RST` sets `CKSEL` only; with it, a soft reset keeps `IRQ_EN` and the written `CKSEL` and
clears everything R214 lists (R213, R214). -/
def Obligations.WriteCtrl : Prop :=
  ∀ (v : Word) (s : State),
    (v.getLsbD 0 = false →
      exec (.wr 0 v) s = .next { s with cksel := v.getLsbD 1, raised := [], out := ⟨none, [], s.irq⟩ }) ∧
    (v.getLsbD 0 = true → exec (.wr 0 v) s = .next { s with
      cksel := v.getLsbD 1
      fst := .m0, sync := false, fidx := 0, curLen := 0, acc := 0, skipRem := 0, events := 0, lastCause := 0
      discardCnt := 0, resyncCnt := 0, synclossCnt := 0, frameCnt := 0, ckerrCnt := 0, extlenCnt := 0
      lastFrame := 0, recStatus := 0, recSeq := 0, avail := 0, fields := FieldRegs.zero
      raised := [], out := ⟨none, [], false⟩ })

/-- `WR EVENTS` clears each defined bit whose written bit is 1 and no other; `WR IRQ_EN` takes the writable bits. Each
moves `irq` at once (R215, R218). -/
def Obligations.WriteEventsAndIrqEn : Prop :=
  ∀ (v : Word) (s : State),
    (exec (.wr 2 v) s = .next { s with
      events := s.events &&& ~~~(v &&& 0x000707FF), raised := []
      out := ⟨none, [], s.events &&& ~~~(v &&& 0x000707FF) &&& s.irqEn != 0⟩ }) ∧
    (exec (.wr 3 v) s = .next { s with
      irqEn := v &&& 0x000707FF, raised := []
      out := ⟨none, [], s.events &&& (v &&& 0x000707FF) != 0⟩ })

/-- Any write to `LAST_CAUSE` or to one of the six counters sets that register to 0 and changes no other (R217). -/
def Obligations.WriteToClearRegisters : Prop :=
  ∀ (v : Word) (s : State),
    exec (.wr 4 v) s = .next { s with lastCause := 0, raised := [], out := ⟨none, [], s.irq⟩ } ∧
    exec (.wr 5 v) s = .next { s with discardCnt := 0, raised := [], out := ⟨none, [], s.irq⟩ } ∧
    exec (.wr 6 v) s = .next { s with resyncCnt := 0, raised := [], out := ⟨none, [], s.irq⟩ } ∧
    exec (.wr 7 v) s = .next { s with synclossCnt := 0, raised := [], out := ⟨none, [], s.irq⟩ } ∧
    exec (.wr 8 v) s = .next { s with frameCnt := 0, raised := [], out := ⟨none, [], s.irq⟩ } ∧
    exec (.wr 9 v) s = .next { s with ckerrCnt := 0, raised := [], out := ⟨none, [], s.irq⟩ } ∧
    exec (.wr 10 v) s = .next { s with extlenCnt := 0, raised := [], out := ⟨none, [], s.irq⟩ }

/-- The record acknowledge: a write of `REC_STATUS` clears `PENDING` if its bit 0 is 1, leaves bits 31 to 1, and
never raises `BAD_REG` (R216). -/
def Obligations.AcknowledgeClearsPending : Prop :=
  ∀ (v : Word) (s : State),
    (v.getLsbD 0 = true → exec (.wr 12 v) s = .next { s with
      recStatus := s.recStatus &&& 0xFFFFFFFE, raised := [], out := ⟨none, [], s.irq⟩ }) ∧
    (v.getLsbD 0 = false → exec (.wr 12 v) s = .next { s with raised := [], out := ⟨none, [], s.irq⟩ })

/-- A write to a read-only or unmapped index (1, 11, 13 to 127) changes nothing and raises `BAD_REG` (R219). -/
def Obligations.WriteReadOnlyRaisesBadReg : Prop :=
  ∀ (i : BitVec 7) (v : Word) (s : State), i.toNat = 1 ∨ i.toNat = 11 ∨ 13 ≤ i.toNat →
    exec (.wr i v) s = .next { s with
      events := s.events ||| 0x400, lastCause := 0x8000000A, raised := [.badReg]
      out := ⟨none, [], (s.events ||| 0x400) &&& s.irqEn != 0⟩ }

/-- A READ of a mapped register disturbs nothing: a BYTE after it does exactly what it would have done without it
(R67, R125). -/
def Obligations.ReadDoesNotDisturbTheStream : Prop :=
  ∀ (i : BitVec 7) (b : Byte) (s t : State), i.toNat ≤ 62 → exec (.rd i) s = .next t →
    exec (.byte b) t = exec (.byte b) s

/-! ### The frame synchronizer -/

/-- State `M0`: the first marker byte is accepted (R111); another byte is discarded, and synchronization is lost if it
was held (R112, R115). -/
def Obligations.BytesInFirstMarkerState : Prop :=
  ∀ (b : Byte) (s : State), s.fst = .m0 →
    exec (.byte 0xFA) s = .next { s with
      fbuf := s.fbuf.write 0 0xFA, fidx := 1, fst := .m1, raised := [], out := ⟨none, [], s.irq⟩ } ∧
    (b ≠ 0xFA → s.sync = false → exec (.byte b) s = .next { s with
      discardCnt := s.discardCnt + 1, events := s.events ||| 0x8, lastCause := 0x80000003, raised := [.discard]
      out := ⟨none, [], (s.events ||| 0x8) &&& s.irqEn != 0⟩ }) ∧
    (b ≠ 0xFA → s.sync = true → exec (.byte b) s = .next { s with
      sync := false, synclossCnt := s.synclossCnt + 1, discardCnt := s.discardCnt + 1
      events := s.events ||| 0xC, lastCause := 0x80000002, raised := [.discard, .syncLost]
      out := ⟨none, [], (s.events ||| 0xC) &&& s.irqEn != 0⟩ })

/-- State `M1`: `0xFF` completes the marker, and a hunt acquires synchronization (R113); another byte discards the
buffered `0xFA` and is examined again as a first marker byte, so one discard if it is `0xFA`, two otherwise (R114). -/
def Obligations.BytesInSecondMarkerState : Prop :=
  ∀ (b : Byte) (s : State), s.fst = .m1 →
    (s.sync = true → exec (.byte 0xFF) s = .next { s with
      fbuf := s.fbuf.write 1 0xFF, fidx := 2, acc := 0, fst := .mid, raised := [], out := ⟨none, [], s.irq⟩ }) ∧
    (s.sync = false → exec (.byte 0xFF) s = .next { s with
      fbuf := s.fbuf.write 1 0xFF, fidx := 2, acc := 0, fst := .mid, sync := true, resyncCnt := s.resyncCnt + 1
      events := s.events ||| 0x10000, raised := [.syncAcq]
      out := ⟨none, [], (s.events ||| 0x10000) &&& s.irqEn != 0⟩ }) ∧
    (b ≠ 0xFF → exec (.byte b) s = .next { s with
      sync := false, synclossCnt := if s.sync then s.synclossCnt + 1 else s.synclossCnt
      discardCnt := s.discardCnt + (if b = 0xFA then 1 else 2)
      events := s.events ||| (if s.sync then 0xC else 0x8)
      lastCause := if s.sync then 0x80000002 else 0x80000003
      fbuf := if b = 0xFA then s.fbuf.write 0 0xFA else s.fbuf
      fidx := if b = 0xFA then 1 else 0
      fst := if b = 0xFA then .m1 else .m0
      raised := (if b = 0xFA then [.discard] else [.discard, .discard]) ++ (if s.sync then [.syncLost] else [])
      out := ⟨none, [], (s.events ||| (if s.sync then 0xC else 0x8)) &&& s.irqEn != 0⟩ })

/-- LEN_STD, and a BYTE other than `0xFF` in state `LEN`: the byte is the payload length (R117). That the LEN_STD row
acts so whatever `fst` is, is the model's choice (log 7); a BYTE runs it in state `LEN` only. -/
def Obligations.StandardLength : Prop :=
  ∀ (n : Byte) (s : State), n ≠ 0xFF →
    exec (.lenStd n) s = .next { s with
      fbuf := s.fbuf.write 3 n, fidx := 4, acc := s.acc + n, curLen := n, fst := if n = 0 then .cks else .pay
      raised := [], out := ⟨none, [], s.irq⟩ } ∧
    (s.fst = .len → exec (.byte n) s = exec (.lenStd n) s)

/-- LEN_EXT, and the BYTE `0xFF` in state `LEN`: the extended-length pattern is reported, the frame emits nothing, and
`SYNC` is unchanged (R118). That the LEN_EXT row acts so whatever `fst` is, is the model's choice (log 7); a BYTE runs
it in state `LEN` only. -/
def Obligations.ExtendedLengthDetected : Prop :=
  ∀ s : State,
    exec .lenExt s = .next { s with
      extlenCnt := s.extlenCnt + 1, fidx := 0, acc := 0, fst := .xlh
      events := s.events ||| 0x2, lastCause := 0x80000001, raised := [.extlen]
      out := ⟨none, [], (s.events ||| 0x2) &&& s.irqEn != 0⟩ } ∧
    (s.fst = .len → exec (.byte 0xFF) s = exec .lenExt s)

/-- State `MID`: the byte is the message-id, whatever its value (R116). State `PAY`: the byte is stored at `FIDX`,
whatever its value, counted and summed; the last one of `CUR_LEN` ends the payload (R119). -/
def Obligations.MessageIdAndPayloadBytes : Prop :=
  ∀ (b : Byte) (s : State),
    (s.fst = .mid → exec (.byte b) s = .next { s with
      fbuf := s.fbuf.write 2 b, fidx := 3, acc := s.acc + b, fst := .len, raised := [], out := ⟨none, [], s.irq⟩ }) ∧
    (s.fst = .pay → s.fidx.toNat < 258 → exec (.byte b) s = .next { s with
      fbuf := s.fbuf.write s.fidx.toNat b, fidx := s.fidx + 1, acc := s.acc + b
      fst := if s.fidx.toNat + 1 = 4 + s.curLen.toNat then .cks else .pay
      raised := [], out := ⟨none, [], s.irq⟩ })

/-- The three extended-length states: the length is read big-endian, one more byte is counted for the checksum, and
that many bytes are skipped without a discard (R121, R122, R123). -/
def Obligations.ExtendedLengthStates : Prop :=
  ∀ (b : Byte) (s : State),
    (s.fst = .xlh → exec (.byte b) s = .next { s with
      skipRem := BitVec.ofNat 17 (b.toNat * 256), fst := .xll, raised := [], out := ⟨none, [], s.irq⟩ }) ∧
    (s.fst = .xll → exec (.byte b) s = .next { s with
      skipRem := (s.skipRem ||| BitVec.ofNat 17 b.toNat) + 1, fst := .xsk
      raised := [], out := ⟨none, [], s.irq⟩ }) ∧
    (s.fst = .xsk → exec (.byte b) s = .next { s with
      skipRem := s.skipRem - 1, fst := if s.skipRem = 1 then .m0 else .xsk
      raised := [], out := ⟨none, [], s.irq⟩ })

/-- A BYTE stops only where it needs a byte that `FBUF` does not have, and completes everywhere else. That it stops
there is the model's choice (log 6). -/
def Obligations.ByteCompletesInsideFbuf : Prop :=
  ∀ (b : Byte) (s : State),
    ((s.fst = .pay → s.fidx.toNat < 258) → (s.fst = .cks → s.curLen ≠ 255 ∨ b ≠ ckExpected s.acc s.cksel) →
      ∃ t, exec (.byte b) s = .next t) ∧
    (s.fst = .pay → 258 ≤ s.fidx.toNat → exec (.byte b) s = .fault (.noSuchByte s.fidx.toNat)) ∧
    (s.fst = .cks → s.curLen = 255 → b = ckExpected s.acc s.cksel → exec (.byte b) s = .fault (.noSuchByte 258))

/-! ### Checksum and commit -/

/-- A checksum mismatch: it is counted and reported, `LAST_FRAME` records the received and the expected checksum,
nothing is emitted, the record bank is unchanged, and `SYNC` stays as it was (R144, R147, R128). -/
def Obligations.ChecksumMismatch : Prop :=
  ∀ (ck : Byte) (s : State), s.fst = .cks → ck ≠ ckExpected s.acc s.cksel →
    exec (.byte ck) s = .next { s with
      lastFrame := ckExpected s.acc s.cksel ++ ck ++ s.curLen ++ s.byteAt 2
      ckerrCnt := s.ckerrCnt + 1, events := s.events ||| 0x1, lastCause := 0x80000000, raised := [.ckerr]
      fidx := 0, curLen := 0, acc := 0, fst := .m0, draws := s.draws + 1
      out := ⟨none, [], (s.events ||| 0x1) &&& s.irqEn != 0⟩ }

/-- FRAME_OTHER: a valid frame of another MID is counted and emitted and touches nothing of the record bank
(R144, R145, R146). That the row acts so whatever `fst` and `FBUF[2]` are, takes its MID as an operand and the
expected byte as the checksum, is the model's choice (log 7); a BYTE runs it at a valid commit only. -/
def Obligations.OtherFrameIsEmittedNotParsed : Prop :=
  ∀ (mid : Byte) (s : State), mid ≠ 0x36 → s.curLen ≠ 255 →
    exec (.frameOther mid) s = .next { s with
      lastFrame := ckExpected s.acc s.cksel ++ ckExpected s.acc s.cksel ++ s.curLen ++ mid
      frameCnt := s.frameCnt + 1, events := s.events ||| 0x20000, raised := [.frameOk]
      fidx := 0, curLen := 0, acc := 0, fst := .m0, draws := s.draws + 1
      out := ⟨none, [.frameOut mid s.curLen s.payload (ckExpected s.acc s.cksel)],
        (s.events ||| 0x20000) &&& s.irqEn != 0⟩ }

/-- FRAME_MEAS: a valid measurement frame is counted and emitted, and its payload's decode replaces the record bank
in the same step, with the events of R162 and the cause of R233 (R144, R162, R190, R191). That the row acts so
whatever `fst` and `FBUF[2]` are, with the expected byte as the checksum, is the model's choice (log 7), and so is the
working set cleared after use (log 12); a BYTE runs it at a valid commit only. -/
def Obligations.MeasurementFrameCommitsRecord : Prop :=
  ∀ s : State, s.curLen ≠ 255 →
    let w := tlvDecode s.payload
    let pending := s.recStatus.getLsbD 0
    let ck := ckExpected s.acc s.cksel
    let events := s.events ||| 0x60000 ||| (if pending then 0x20 else 0) ||| (if w.tr then 0x10 else 0) |||
      (if w.un then 0x80 else 0) ||| (if w.sh then 0x40 else 0) ||| (if w.lg then 0x100 else 0)
    exec .frameMeas s = .next { s with
      lastFrame := ck ++ ck ++ s.curLen ++ 0x36#8
      frameCnt := s.frameCnt + 1, events := events
      fields := w.regs, avail := w.av.setWidth 32, recStatus := packRecStatus w, recSeq := s.recSeq + 1
      lastCause := if w.tr then 0x80000004 else if pending then 0x80000005 else if w.sh then 0x80000006
        else if w.un then 0x80000007 else if w.lg then 0x80000008 else s.lastCause
      work := TlvWork.init, fidx := 0, curLen := 0, acc := 0, fst := .m0, draws := s.draws + 1
      raised := (if w.lg then [.lenLong] else []) ++ (if w.sh then [.lenShort] else []) ++
        (if w.un then [.unknownId] else []) ++ (if w.tr then [.trunc] else []) ++ [.recDone] ++
        (if pending then [.recOverrun] else []) ++ [.frameOk]
      out := ⟨none, [.frameOut 0x36 s.curLen s.payload ck,
        .recordOut (s.recSeq + 1) (w.av.setWidth 32) (packRecStatus w) w.regs], events &&& s.irqEn != 0⟩ }

/-- At a commit the accumulator gives the checksum of the whole frame in `FBUF` (R143), and the `FrameOut` of a valid
frame rebuilds the wire frame: the held bytes and the checksum byte (R145). -/
def Obligations.CommitChecksumIsOfTheWholeFrame : Prop :=
  ∀ s : State, s.Inv → s.fst = .cks →
    ckExpected s.acc s.cksel = ckCompute s.heldBytes s.cksel ∧
    OutEvent.wire (.frameOut (s.byteAt 2) s.curLen s.payload (ckExpected s.acc s.cksel)) =
      some (s.heldBytes ++ [ckExpected s.acc s.cksel])

/-- The checksum round trip, for either coverage; and the two coverages never accept the same frame (R149, R150). -/
def Obligations.ChecksumRoundTripAndCoverages : Prop :=
  ∀ (rest : List Byte) (k : Bool),
    let f := (0xFA : Byte) :: (0xFF : Byte) :: rest
    ckValidate (f ++ [ckCompute f k]) k = true ∧ ckCompute f false = ckCompute f true + 1 ∧
      ∀ ck, ¬(ckValidate (f ++ [ck]) false = true ∧ ckValidate (f ++ [ck]) true = true)

/-- Flipping one bit of one byte at frame byte index `1 + k` or above makes validation fail (R148); under coverage 0 a
frame is valid exactly when its bytes from index 1 on sum to 0 (R141). -/
def Obligations.SingleBitFlipIsDetected : Prop :=
  (∀ (g : List Byte) (k : Bool) (j bit : Nat), 3 ≤ g.length → (if k then 2 else 1) ≤ j → j < g.length → bit < 8 →
    ckValidate g k = true → ckValidate (g.set j (g.getD j 0 ^^^ BitVec.twoPow 8 bit)) k = false) ∧
  (∀ g : List Byte, 3 ≤ g.length → (ckValidate g false = true ↔ byteSum (g.drop 1) = 0))

/-! ### The TLV parser -/

/-- The one-register fields: packet counter (R171), sample time (R172), status word (R183), temperature (R184),
pressure (R185). A longer value sets `lg`, and its further bytes change nothing (R167). -/
def Obligations.ScalarRecords : Prop :=
  ∀ (a b c d : Byte) (more : List Byte) (s : State),
    exec (.tlvPktCnt (a :: b :: more)) s = .next { s with
      work := s.work.extracted (2 + more.length) 2 0 { s.work.regs with pktCnt := 0#16 ++ a ++ b } } ∧
    exec (.tlvSampleTime (a :: b :: c :: d :: more)) s = .next { s with
      work := s.work.extracted (4 + more.length) 4 1 { s.work.regs with sampleTime := a ++ b ++ c ++ d } } ∧
    exec (.tlvStatusWord (a :: b :: c :: d :: more)) s = .next { s with
      work := s.work.extracted (4 + more.length) 4 12 { s.work.regs with statusWord := a ++ b ++ c ++ d } } ∧
    exec (.tlvTemp (a :: b :: c :: d :: more)) s = .next { s with
      work := s.work.extracted (4 + more.length) 4 13 { s.work.regs with temp := a ++ b ++ c ++ d } } ∧
    exec (.tlvBaro (a :: b :: c :: d :: more)) s = .next { s with
      work := s.work.extracted (4 + more.length) 4 14 { s.work.regs with baro := a ++ b ++ c ++ d } }

/-- The UTC record: nanoseconds, year, month, day, hour, minute, second (R173). -/
def Obligations.UtcRecord : Prop :=
  ∀ (n3 n2 n1 n0 y1 y0 mo da ho mi se : Byte) (more : List Byte) (s : State),
    exec (.tlvUtc (n3 :: n2 :: n1 :: n0 :: y1 :: y0 :: mo :: da :: ho :: mi :: se :: more)) s = .next { s with
      work := s.work.extracted (11 + more.length) 11 2 { s.work.regs with
        utcNs := n3 ++ n2 ++ n1 ++ n0, utcYmd := da ++ mo ++ y1 ++ y0, utcHms := 0#8 ++ se ++ mi ++ ho } }

/-- The float records, raw big-endian bits in wire order: Euler (R174), acceleration (R176), free acceleration (R177),
rate of turn (R178), magnetic field (R179) and delta-V (R186) of three components; the quaternion (R175) and the
delta-quaternion (R187) of four. -/
def Obligations.FloatRecords : Prop :=
  ∀ (a0 a1 a2 a3 b0 b1 b2 b3 c0 c1 c2 c3 d0 d1 d2 d3 : Byte) (more : List Byte) (s : State),
    let v := a0 :: a1 :: a2 :: a3 :: b0 :: b1 :: b2 :: b3 :: c0 :: c1 :: c2 :: c3 :: more
    let q := a0 :: a1 :: a2 :: a3 :: b0 :: b1 :: b2 :: b3 :: c0 :: c1 :: c2 :: c3 :: d0 :: d1 :: d2 :: d3 :: more
    let w := a0 ++ a1 ++ a2 ++ a3
    let x := b0 ++ b1 ++ b2 ++ b3
    let y := c0 ++ c1 ++ c2 ++ c3
    let z := d0 ++ d1 ++ d2 ++ d3
    let r := s.work.regs
    let n := more.length
    exec (.tlvEuler v) s = .next { s with
      work := s.work.extracted (12 + n) 12 3 { r with euler0 := w, euler1 := x, euler2 := y } } ∧
    exec (.tlvAcc v) s = .next { s with
      work := s.work.extracted (12 + n) 12 5 { r with acc0 := w, acc1 := x, acc2 := y } } ∧
    exec (.tlvFacc v) s = .next { s with
      work := s.work.extracted (12 + n) 12 6 { r with facc0 := w, facc1 := x, facc2 := y } } ∧
    exec (.tlvRot v) s = .next { s with
      work := s.work.extracted (12 + n) 12 7 { r with rot0 := w, rot1 := x, rot2 := y } } ∧
    exec (.tlvMag v) s = .next { s with
      work := s.work.extracted (12 + n) 12 8 { r with mag0 := w, mag1 := x, mag2 := y } } ∧
    exec (.tlvDv v) s = .next { s with
      work := s.work.extracted (12 + n) 12 15 { r with dv0 := w, dv1 := x, dv2 := y } } ∧
    exec (.tlvQuat q) s = .next { s with
      work := s.work.extracted (16 + n) 16 4 { r with quat0 := w, quat1 := x, quat2 := y, quat3 := z } } ∧
    exec (.tlvDq q) s = .next { s with
      work := s.work.extracted (16 + n) 16 16 { r with dq0 := w, dq1 := x, dq2 := y, dq3 := z } }

/-- The FP1632 records: latitude and longitude (R180), altitude (R181), velocity (R182). In each value the high word
is the sign-extended integer part, the low word the fractional part as it stands (R169). -/
def Obligations.FixedPointRecords : Prop :=
  ∀ (f3 f2 f1 f0 i1 i0 g3 g2 g1 g0 j1 j0 h3 h2 h1 h0 k1 k0 : Byte) (more : List Byte) (s : State),
    exec (.tlvAlt (f3 :: f2 :: f1 :: f0 :: i1 :: i0 :: more)) s = .next { s with
      work := s.work.extracted (6 + more.length) 6 10 { s.work.regs with
        altHi := (i1 ++ i0).signExtend 32, altLo := f3 ++ f2 ++ f1 ++ f0 } } ∧
    exec (.tlvLatLon (f3 :: f2 :: f1 :: f0 :: i1 :: i0 :: g3 :: g2 :: g1 :: g0 :: j1 :: j0 :: more)) s = .next { s with
      work := s.work.extracted (12 + more.length) 12 9 { s.work.regs with
        latHi := (i1 ++ i0).signExtend 32, latLo := f3 ++ f2 ++ f1 ++ f0
        lonHi := (j1 ++ j0).signExtend 32, lonLo := g3 ++ g2 ++ g1 ++ g0 } } ∧
    exec (.tlvVel (f3 :: f2 :: f1 :: f0 :: i1 :: i0 :: g3 :: g2 :: g1 :: g0 :: j1 :: j0 ::
        h3 :: h2 :: h1 :: h0 :: k1 :: k0 :: more)) s = .next { s with
      work := s.work.extracted (18 + more.length) 18 11 { s.work.regs with
        vel0Hi := (i1 ++ i0).signExtend 32, vel0Lo := f3 ++ f2 ++ f1 ++ f0
        vel1Hi := (j1 ++ j0).signExtend 32, vel1Lo := g3 ++ g2 ++ g1 ++ g0
        vel2Hi := (k1 ++ k0).signExtend 32, vel2Lo := h3 ++ h2 ++ h1 ++ h0 } }

/-- TLV_UNKNOWN: the record is counted, skipped by its declared length and reported; no field changes, whatever the
value (R163). -/
def Obligations.UnknownRecordIsSkipped : Prop :=
  ∀ (id : Half) (v : List Byte) (s : State), exec (.tlvUnknown id v) s = .next { s with
    work := { s.work with nrec := s.work.nrec + 1, off := s.work.off + 3 + v.length, un := true, lastunk := id } }

/-- Every known record whose value is shorter than its layout is counted and skipped by its declared length, sets
`sh`, and leaves its field and its availability bit as they were (R166). All 17 TLV rows of a known id. -/
def Obligations.ShortRecordIsSkipped : Prop :=
  ∀ (f : Field) (v : List Byte) (s : State), v.length < f.size → exec (f.instr v) s = .next { s with
    work := { s.work with nrec := s.work.nrec + 1, off := s.work.off + 3 + v.length, sh := true } }

/-- A value longer than the layout is extracted from its first `S` bytes alone (R167). Of several extracted records of
one field the last one wins, whatever whole records stand between: an extraction leaves no trace of an earlier one in
the field registers or the availability mask; and what it wrote, with the availability bit, stays through later records
of other fields, of unknown ids, or of the same field but too short (R166, R168). -/
def Obligations.LongAndRepeatedRecords : Prop :=
  ∀ (f : Field) (v v' : List Byte) (rs : List (Half × List Byte)) (w : TlvWork),
    let through := fun w : TlvWork => rs.foldl (fun w r => w.pass r.1 r.2) w
    (f.size ≤ v.length → extract v w.regs f = extract (v.take f.size) w.regs f) ∧
    (f.size ≤ v.length → f.size ≤ v'.length →
      ((through (w.known f v)).known f v').regs = ((through w).known f v').regs ∧
      ((through (w.known f v)).known f v').av = ((through w).known f v').av) ∧
    (f.size ≤ v.length → (∀ r ∈ rs, Field.ofId r.1 = some f → r.2.length < f.size) →
      extract v (through (w.known f v)).regs f = (through (w.known f v)).regs ∧
      (through (w.known f v)).av.getLsbD f.number = true)

/-- Records packed one after another are decoded one after another, each by its own pass, from the first to the last
(R91, R161). -/
def Obligations.DecodeIsRecordByRecord : Prop :=
  ∀ rs : List (Half × List Byte), (∀ r ∈ rs, r.2.length ≤ 255) →
    tlvDecode (recordsBytes rs) = rs.foldl (fun w r => w.pass r.1 r.2) TlvWork.init

/-- A truncated tail ends the decode with `tr` set and keeps everything decoded before it: a tail of one or two bytes
counts no record (R165), a header whose declared length runs past the payload counts one (R164). -/
def Obligations.TruncationKeepsEarlierFields : Prop :=
  ∀ (rs : List (Half × List Byte)), (∀ r ∈ rs, r.2.length ≤ 255) →
    let w := rs.foldl (fun w r => w.pass r.1 r.2) TlvWork.init
    (∀ tail : List Byte, tail.length = 1 ∨ tail.length = 2 →
      tlvDecode (recordsBytes rs ++ tail) = { w with tr := true }) ∧
    (∀ (hi lo len : Byte) (v : List Byte), v.length < len.toNat →
      tlvDecode (recordsBytes rs ++ hi :: lo :: len :: v) = { w with tr := true, nrec := w.nrec + 1 })

/-- The decode of a payload of at most 254 bytes reads at most 84 headers, so `NREC` does not wrap (R161). -/
def Obligations.DecodeCountsAtMost84 : Prop :=
  ∀ p : List Byte, p.length ≤ 254 → (tlvDecode p).nrec.toNat ≤ 84

/-! ### The status-word decoder -/

/-- `STATUS_DEC`, field by field (R201, R202, R203); the unassigned bits have no effect (R204). -/
def Obligations.StatusWordFields : Prop :=
  ∀ sw : Word,
    ((splitStatus sw).extractLsb' 0 1 = sw.extractLsb' 1 1 ∧ (splitStatus sw).extractLsb' 1 1 = sw.extractLsb' 2 1 ∧
      (splitStatus sw).extractLsb' 2 2 = sw.extractLsb' 3 2 ∧ (splitStatus sw).extractLsb' 4 1 = sw.extractLsb' 21 1 ∧
      (splitStatus sw).extractLsb' 5 1 = sw.extractLsb' 22 1 ∧ (splitStatus sw).extractLsb' 6 3 = sw.extractLsb' 23 3 ∧
      (splitStatus sw).extractLsb' 9 1 = sw.extractLsb' 26 1 ∧
      (splitStatus sw).extractLsb' 10 2 = sw.extractLsb' 27 2 ∧ (splitStatus sw).extractLsb' 12 20 = 0) ∧
    splitStatus sw = splitStatus (sw &&& 0x1FE0001E)

/-- Whatever the open category map is, exactly three raw values of each tri-state field have a category, one for each
of the three (R205). -/
def Obligations.EachCategoryHasOneRawValue : Prop :=
  ∀ (w : Nat) (m : Config.CategoryMap w), m.wf → ∀ c : Config.Category, ∃! v : BitVec w, m.category v = some c

/-! ### Events, counters, interrupt -/

/-- A BYTE, a READ or a reserved word: every raised event's bit is set and no bit is cleared (R231, R238), and
`LAST_CAUSE` takes the lowest error or warning code raised, codes 0 to 10, or stays when none was raised (R233). -/
def Obligations.EventsAreStickyAndLowestCodeWins : Prop :=
  (∀ (raised : List EventCode) (c : Nat), lowestCause raised = some c ↔
    (∃ e ∈ raised, e.code = c) ∧ c ≤ 10 ∧ ∀ e ∈ raised, e.code ≤ 10 → c ≤ e.code) ∧
  (∀ (i : Instr) (s t : State),
    (∃ b, i = .byte b) ∨ (∃ r, i = .rd r) ∨ (∃ x, i = .reservedOp3 x) ∨ (∃ x, i = .reservedByte x) ∨
      (∃ x, i = .reservedRead x) ∨ (∃ x, i = .reservedWrite x) →
    exec i s = .next t →
    t.events = t.raised.foldl (fun ev e => ev ||| e.bit) s.events ∧
    t.lastCause = (match lowestCause t.raised with
      | none => s.lastCause
      | some c => 0x80000000#32 ||| BitVec.ofNat 32 c))

/-- After every host command, `irq` is the level of the enabled pending events (R236). -/
def Obligations.IrqIsTheLevel : Prop :=
  ∀ (cmd : Half) (wdata : Word) (s t : State), exec (decodeCommand cmd wdata) s = .next t →
    t.out.irq = (t.events &&& t.irqEn != 0)

/-- The counters count every occurrence: after a BYTE each has grown by the number of its events raised in the step
(R29 to R34, R231). -/
def Obligations.CountersCountOccurrences : Prop :=
  ∀ (b : Byte) (s t : State), exec (.byte b) s = .next t →
    t.discardCnt = s.discardCnt + BitVec.ofNat 32 (t.raised.count .discard) ∧
    t.resyncCnt = s.resyncCnt + BitVec.ofNat 32 (t.raised.count .syncAcq) ∧
    t.synclossCnt = s.synclossCnt + BitVec.ofNat 32 (t.raised.count .syncLost) ∧
    t.frameCnt = s.frameCnt + BitVec.ofNat 32 (t.raised.count .frameOk) ∧
    t.ckerrCnt = s.ckerrCnt + BitVec.ofNat 32 (t.raised.count .ckerr) ∧
    t.extlenCnt = s.extlenCnt + BitVec.ofNat 32 (t.raised.count .extlen) ∧
    t.recSeq = s.recSeq + BitVec.ofNat 32 (t.raised.count .recDone)

/-! ### Whole-machine rules -/

/-- `SYNC` is cleared only by a marker mismatch at a frame start, a soft reset or a hardware reset (R22, R127). -/
def Obligations.OnlyTheseClearSync : Prop :=
  ∀ s t : State, step s = .next t → s.sync = true → t.sync = false →
    (∃ b wdata cmd rest, s.inputs = .command cmd wdata :: rest ∧ decodeCommand cmd wdata = .byte b ∧
      ((s.fst = .m0 ∧ b ≠ 0xFA) ∨ (s.fst = .m1 ∧ b ≠ 0xFF))) ∨
    (∃ v cmd rest, s.inputs = .command cmd v :: rest ∧ decodeCommand cmd v = .wr 0 v ∧ v.getLsbD 0 = true) ∨
    (∃ rest, s.inputs = .rst :: rest)

/-- A BYTE changes neither `CKSEL` nor `IRQ_EN` (R129), leaves the whole record bank alone unless it commits a valid
measurement frame (R71, R146, R147), and writes no byte of `FBUF` but the one at the position its state gives
(R60, R110 to R123). -/
def Obligations.ByteFrame : Prop :=
  ∀ (b : Byte) (s t : State), exec (.byte b) s = .next t →
    t.cksel = s.cksel ∧ t.irqEn = s.irqEn ∧
    (¬(s.fst = .cks ∧ b = ckExpected s.acc s.cksel ∧ s.byteAt 2 = 0x36) →
      t.fields = s.fields ∧ t.avail = s.avail ∧ t.recStatus = s.recStatus ∧ t.recSeq = s.recSeq) ∧
    (∀ a : Nat,
      (match s.fst with
        | .m0 => a ≠ 0 | .m1 => a ≠ 0 ∧ a ≠ 1 | .mid => a ≠ 2 | .len => a ≠ 3 | .pay => a ≠ s.fidx.toNat
        | .cks | .xlh | .xll | .xsk => True) →
      t.fbuf.read? a = s.fbuf.read? a)

/-- READ, a reserved word, and a WRITE that is no soft reset leave the stream's state, the frame in progress and the
record bank's fields as they are; only a soft reset and a BYTE move `fst` (R20, R21, R60). -/
def Obligations.HostAccessLeavesTheStream : Prop :=
  ∀ (cmd : Half) (wdata : Word) (s t : State),
    (∀ b, decodeCommand cmd wdata ≠ .byte b) → ¬(decodeCommand cmd wdata = .wr 0 wdata ∧ wdata.getLsbD 0 = true) →
    exec (decodeCommand cmd wdata) s = .next t →
    t.fst = s.fst ∧ t.sync = s.sync ∧ t.fbuf = s.fbuf ∧ t.fidx = s.fidx ∧ t.curLen = s.curLen ∧ t.acc = s.acc ∧
      t.skipRem = s.skipRem ∧ t.lastFrame = s.lastFrame ∧ t.recSeq = s.recSeq ∧ t.avail = s.avail ∧
      t.fields = s.fields ∧ t.out.emitted = []

/-- Emitted outputs are immutable: a step only appends, and at most its own outputs (R13, R72). Whatever
`FRAME_OUT_PORT` is, a step hands it at most that step's events, in emission order, after all it was handed before (R8;
log 15). -/
def Obligations.OutputsAreImmutable : Prop :=
  ∀ s t : State, step s = .next t →
    (t.trace = s.trace ∧ ∀ (Port : Type) (port : Config.FrameOutPort OutEvent Port), t.portAfter port = s.portAfter port) ∨
    (t.trace = s.trace ++ [t.out] ∧ ∀ (Port : Type) (port : Config.FrameOutPort OutEvent Port),
      t.portAfter port = t.out.emitted.foldl port.accept (s.portAfter port))

/-! ### Reset -/

/-- Every mapped register reads 0 after a hardware reset, `fst` is `M0`, `SYNC` is 0, and `irq` is 0 (R43, R260). -/
def Obligations.ResetValues : Prop :=
  (∀ i : Nat, i ≤ 62 → State.reset.regValue i = 0) ∧ State.reset.fst = .m0 ∧ State.reset.sync = false ∧
    State.reset.fidx = 0 ∧ State.reset.curLen = 0 ∧ State.reset.acc = 0 ∧ State.reset.skipRem = 0 ∧
    State.reset.cksel = false ∧ State.reset.irqEn = 0 ∧ State.reset.irq = false

/-- After a soft reset every register but `CTRL` and `IRQ_EN` reads as after a hardware reset, `CTRL` holds the written
`CKSEL` alone, `IRQ_EN` is kept and `irq` is 0 (R214, R261). -/
def Obligations.SoftResetIsHardResetButConfiguration : Prop :=
  ∀ (v : Word) (s : State), v.getLsbD 0 = true → ∃ t, exec (.wr 0 v) s = .next t ∧
    (∀ i : Nat, 1 ≤ i → i ≤ 62 → i ≠ 3 → t.regValue i = State.reset.regValue i) ∧
    t.regValue 0 = v &&& 2 ∧ t.irqEn = s.irqEn ∧ t.out.irq = false ∧ t.fst = .m0 ∧ t.sync = false

/-! ### The invariant and safety -/

/-- The invariant holds right after reset. -/
def Obligations.ResetMeetsInvariant : Prop := State.reset.Inv ∧ State.reset.AbsentZero

/-- Every step keeps the invariant: the canonical frame buffer, `FIDX`, `CUR_LEN` and `SKIP_REM` as their state of
`fst` says (R23, R42), `SYNC` from `MID` to `XSK` (R124), `ACC` as the running sum (R142), the reserved bits
(R26, R27, R36, R38, R41), a legal `LAST_CAUSE` (R28) and the `irq` level (R236). -/
def Obligations.EveryStepKeepsInvariant : Prop :=
  ∀ s t : State, s.Inv → step s = .next t → t.Inv

/-- Every step keeps this: a register whose field is not available holds 0 (R41, R162). -/
def Obligations.AbsentFieldsStayZero : Prop :=
  ∀ s t : State, s.AbsentZero → step s = .next t → t.AbsentZero

/-- XBFS never traps: from a state that meets the invariant every step completes, whatever is presented (R235). -/
def Obligations.NoStepStops : Prop :=
  ∀ s : State, s.Inv → s.Completes

/-- No sequence of commands and resets, of any length, ever stops the block (R129, R235). -/
def Obligations.NoRunStops : Prop :=
  ∀ (inputs : List Input) (n : Nat), ∃ t, Host.Core.run core n { State.reset with inputs := inputs } = .next t

/-! ### Runs -/

/-- Chunk independence: presenting one sequence at once, or in two parts with the block run dry between them, ends in
the same state with the same observation (R125). The list of pending inputs is the model's own (log 1). -/
def Obligations.ChunkingDoesNotMatter : Prop :=
  ∀ (s : State) (is js : List Input), s.inputs = [] →
    Host.Core.run core (is.length + js.length) (s.presenting (is ++ js)) =
      (match Host.Core.run core is.length (s.presenting is) with
        | .next t => Host.Core.run core js.length (State.presenting t js)
        | .fault r => .fault r
        | .refused r => .refused r)

/-- Resync: garbage with no marker pair, then a valid frame, from reset and under either coverage, yields exactly that
frame, one acquisition, one discard per garbage byte, and ends synchronized (R126). -/
def Obligations.ResyncAfterGarbage : Prop :=
  ∀ (g : List Byte) (k : Bool) (mid : Byte) (payload : List Byte), NoMarker g → payload.length ≤ 254 →
    let stream := feed (g ++ wireFrame k mid payload)
    ∃ t, Host.Core.run core stream.length { State.reset with cksel := k, inputs := stream } = .next t ∧
      t.emitted.filter OutEvent.isFrame =
        [.frameOut mid (BitVec.ofNat 8 payload.length) payload (ckCompute (frameBody mid payload) k)] ∧
      t.resyncCnt = 1 ∧ t.events.getLsbD 16 = true ∧ t.discardCnt = BitVec.ofNat 32 g.length ∧ t.sync = true

/-- An extended frame is skipped whole: after its two length bytes, the payload bytes and one checksum byte, whatever
they are, the block is at a frame start, as synchronized as before, with no byte discarded and nothing emitted
(R89, R121 to R123). -/
def Obligations.ExtendedFrameIsSkipped : Prop :=
  ∀ (s : State) (hi lo : Byte) (bs : List Byte), s.fst = .xlh → bs.length = hi.toNat * 256 + lo.toNat + 1 →
    let stream := feed (hi :: lo :: bs)
    ∃ t, Host.Core.run core stream.length { s with inputs := stream } = .next t ∧
      t.fst = .m0 ∧ t.sync = s.sync ∧ t.skipRem = 0 ∧ t.discardCnt = s.discardCnt ∧ t.events = s.events ∧
      t.fbuf = s.fbuf ∧ t.emitted = s.emitted

/-- A placed instruction is the very next one to run: a host command as it stands; a LEN byte in state `LEN`, a MID byte
at the valid commit of a frame with an empty payload; and a TLV record as the whole payload of a valid measurement frame
whose decode is that record's one pass (log 9). -/
def Obligations.PlacedInstructionRunsNext : Prop :=
  (∀ (s : State) (cmd : Half) (wdata : Word) (t : State), exec (decodeCommand cmd wdata) s = .next t →
    step (s.present (.command cmd wdata)) = .next { t with trace := t.trace ++ [t.out] }) ∧
  (∀ (s : State) (b : Byte), ∃ t, exec (decodeLen b) { s.awaitingLen b with inputs := s.inputs } = .next t ∧
    step (s.present (.lenByte b)) = .next { t with trace := t.trace ++ [t.out] }) ∧
  (∀ (s : State) (mid : Byte), ∃ t, exec (decodeMid mid) { s.holdingFrame mid [] with inputs := s.inputs } = .next t ∧
    step (s.present (.midByte mid)) = .next { t with trace := t.trace ++ [t.out] } ∧
    t.out.emitted.head? = some (.frameOut mid 0 [] (ckExpected mid s.cksel))) ∧
  (∀ (s : State) (id : Half) (v : List Byte), v.length ≤ 251 →
    ∃ t, step (s.present (.record (recordBytes id v))) = .next t ∧
      t.fields = (TlvWork.init.pass id v).regs ∧ t.avail = (TlvWork.init.pass id v).av.setWidth 32 ∧
      t.recStatus = packRecStatus (TlvWork.init.pass id v) ∧ t.frameCnt = s.frameCnt + 1)
end

