-- ==== Sys2Proof/Laws/Memory.lean ====
section
/-! SUPPORT. The laws of the frame buffer: a read after a write, and the canonical form. -/

namespace Sys2Proof.Machine

@[simp] theorem Memory.read?_nil (a : Nat) : Memory.read? [] a = none := rfl

theorem Memory.read?_cons (b : Nat) (v : Byte) (m : Memory) (a : Nat) :
    Memory.read? ((b, v) :: m) a = if a = b then some v else Memory.read? m a := rfl

/-- The byte just stored is read back. -/
@[simp] theorem Memory.read?_write_same (m : Memory) (a : Nat) (v : Byte) : (m.write a v).read? a = some v := by
  induction m with
  | nil => simp [Memory.write, Memory.read?_cons]
  | cons c m ih =>
    obtain ⟨b, u⟩ := c
    simp only [Memory.write]
    split
    · simp [Memory.read?_cons]
    · split
      · simp [Memory.read?_cons]
      · rename_i _ hne
        simp [Memory.read?_cons, hne, ih]

/-- Every other byte reads as before. -/
theorem Memory.read?_write_other (m : Memory) (a : Nat) (v : Byte) {x : Nat} (h : x ≠ a) :
    (m.write a v).read? x = m.read? x := by
  induction m with
  | nil => simp [Memory.write, Memory.read?_cons, h]
  | cons c m ih =>
    obtain ⟨b, u⟩ := c
    simp only [Memory.write]
    split
    · simp [Memory.read?_cons, h]
    · split
      · rename_i _ hab
        subst hab
        simp [Memory.read?_cons, h]
      · simp [Memory.read?_cons, ih]

theorem Memory.risesAbove_mono {m : Memory} {lo lo' : Nat} (h : lo' ≤ lo) (hm : m.risesAbove lo = true) :
    m.risesAbove lo' = true := by
  cases m with
  | nil => rfl
  | cons c m =>
    simp only [Memory.risesAbove, Bool.and_eq_true, decide_eq_true_eq] at hm ⊢
    exact ⟨le_trans h hm.1, hm.2⟩

theorem Memory.risesAbove_write {m : Memory} {lo a : Nat} {v : Byte} (ha : lo ≤ a)
    (hm : m.risesAbove lo = true) : (m.write a v).risesAbove lo = true := by
  induction m generalizing lo with
  | nil => simp [Memory.write, Memory.risesAbove, ha]
  | cons c m ih =>
    obtain ⟨b, u⟩ := c
    simp only [Memory.risesAbove, Bool.and_eq_true, decide_eq_true_eq] at hm
    simp only [Memory.write]
    split
    · rename_i hab
      simp only [Memory.risesAbove, Bool.and_eq_true, decide_eq_true_eq]
      exact ⟨ha, by omega, hm.2⟩
    · split
      · rename_i _ hab
        subst hab
        simp only [Memory.risesAbove, Bool.and_eq_true, decide_eq_true_eq]
        exact ⟨ha, hm.2⟩
      · simp only [Memory.risesAbove, Bool.and_eq_true, decide_eq_true_eq]
        exact ⟨hm.1, ih (by omega) hm.2⟩

theorem Memory.all_write {m : Memory} {a : Nat} {v : Byte} {p : Host.Cell → Bool} (ha : p (a, v) = true)
    (hm : m.all p = true) : (m.write a v).all p = true := by
  induction m with
  | nil => simp [Memory.write, ha]
  | cons c m ih =>
    obtain ⟨b, u⟩ := c
    simp only [List.all_cons, Bool.and_eq_true] at hm
    simp only [Memory.write]
    split
    · simp [ha, hm]
    · split
      · simp [ha, hm]
      · simp [hm.1, ih hm.2]

/-- A store to a position of `FBUF` keeps the canonical form. -/
theorem Memory.write_wf {m : Memory} {a : Nat} {v : Byte} (ha : a < Config.fbufSize) (hm : m.wf = true) :
    (m.write a v).wf = true := by
  simp only [Memory.wf, Bool.and_eq_true] at hm ⊢
  exact ⟨Memory.risesAbove_write (Nat.zero_le a) hm.1, Memory.all_write (by simpa using ha) hm.2⟩

/-- The frame buffer after reset has the canonical form. -/
theorem State.reset_memory_wf : State.reset.fbuf.wf = true := by decide

end Sys2Proof.Machine
end

