-- ==== Sys2Proof/Laws/State.lean ====
section
/-! SUPPORT. What each update of the state does to each field: true by definition, for simp. -/

namespace Sys2Proof.Machine.State

/-! ### `storeByte` -/

@[simp] theorem storeByte_fst (a : Nat) (v : Byte) (s : State) : (s.storeByte a v).fst = s.fst := rfl
@[simp] theorem storeByte_sync (a : Nat) (v : Byte) (s : State) : (s.storeByte a v).sync = s.sync := rfl
@[simp] theorem storeByte_fbuf (a : Nat) (v : Byte) (s : State) : (s.storeByte a v).fbuf = s.fbuf.write a v := rfl
@[simp] theorem storeByte_fidx (a : Nat) (v : Byte) (s : State) : (s.storeByte a v).fidx = s.fidx := rfl
@[simp] theorem storeByte_curLen (a : Nat) (v : Byte) (s : State) : (s.storeByte a v).curLen = s.curLen := rfl
@[simp] theorem storeByte_acc (a : Nat) (v : Byte) (s : State) : (s.storeByte a v).acc = s.acc := rfl
@[simp] theorem storeByte_skipRem (a : Nat) (v : Byte) (s : State) : (s.storeByte a v).skipRem = s.skipRem := rfl
@[simp] theorem storeByte_cksel (a : Nat) (v : Byte) (s : State) : (s.storeByte a v).cksel = s.cksel := rfl
@[simp] theorem storeByte_events (a : Nat) (v : Byte) (s : State) : (s.storeByte a v).events = s.events := rfl
@[simp] theorem storeByte_irqEn (a : Nat) (v : Byte) (s : State) : (s.storeByte a v).irqEn = s.irqEn := rfl
@[simp] theorem storeByte_lastCause (a : Nat) (v : Byte) (s : State) : (s.storeByte a v).lastCause = s.lastCause := rfl
@[simp] theorem storeByte_discardCnt (a : Nat) (v : Byte) (s : State) : (s.storeByte a v).discardCnt = s.discardCnt := rfl
@[simp] theorem storeByte_resyncCnt (a : Nat) (v : Byte) (s : State) : (s.storeByte a v).resyncCnt = s.resyncCnt := rfl
@[simp] theorem storeByte_synclossCnt (a : Nat) (v : Byte) (s : State) : (s.storeByte a v).synclossCnt = s.synclossCnt := rfl
@[simp] theorem storeByte_frameCnt (a : Nat) (v : Byte) (s : State) : (s.storeByte a v).frameCnt = s.frameCnt := rfl
@[simp] theorem storeByte_ckerrCnt (a : Nat) (v : Byte) (s : State) : (s.storeByte a v).ckerrCnt = s.ckerrCnt := rfl
@[simp] theorem storeByte_extlenCnt (a : Nat) (v : Byte) (s : State) : (s.storeByte a v).extlenCnt = s.extlenCnt := rfl
@[simp] theorem storeByte_lastFrame (a : Nat) (v : Byte) (s : State) : (s.storeByte a v).lastFrame = s.lastFrame := rfl
@[simp] theorem storeByte_recStatus (a : Nat) (v : Byte) (s : State) : (s.storeByte a v).recStatus = s.recStatus := rfl
@[simp] theorem storeByte_recSeq (a : Nat) (v : Byte) (s : State) : (s.storeByte a v).recSeq = s.recSeq := rfl
@[simp] theorem storeByte_avail (a : Nat) (v : Byte) (s : State) : (s.storeByte a v).avail = s.avail := rfl
@[simp] theorem storeByte_fields (a : Nat) (v : Byte) (s : State) : (s.storeByte a v).fields = s.fields := rfl
@[simp] theorem storeByte_work (a : Nat) (v : Byte) (s : State) : (s.storeByte a v).work = s.work := rfl
@[simp] theorem storeByte_raised (a : Nat) (v : Byte) (s : State) : (s.storeByte a v).raised = s.raised := rfl
@[simp] theorem storeByte_out (a : Nat) (v : Byte) (s : State) : (s.storeByte a v).out = s.out := rfl
@[simp] theorem storeByte_trace (a : Nat) (v : Byte) (s : State) : (s.storeByte a v).trace = s.trace := rfl
@[simp] theorem storeByte_inputs (a : Nat) (v : Byte) (s : State) : (s.storeByte a v).inputs = s.inputs := rfl
@[simp] theorem storeByte_draws (a : Nat) (v : Byte) (s : State) : (s.storeByte a v).draws = s.draws := rfl

/-! ### `raise` -/

@[simp] theorem raise_fst (e : EventCode) (s : State) : (s.raise e).fst = s.fst := rfl
@[simp] theorem raise_sync (e : EventCode) (s : State) : (s.raise e).sync = s.sync := rfl
@[simp] theorem raise_fbuf (e : EventCode) (s : State) : (s.raise e).fbuf = s.fbuf := rfl
@[simp] theorem raise_fidx (e : EventCode) (s : State) : (s.raise e).fidx = s.fidx := rfl
@[simp] theorem raise_curLen (e : EventCode) (s : State) : (s.raise e).curLen = s.curLen := rfl
@[simp] theorem raise_acc (e : EventCode) (s : State) : (s.raise e).acc = s.acc := rfl
@[simp] theorem raise_skipRem (e : EventCode) (s : State) : (s.raise e).skipRem = s.skipRem := rfl
@[simp] theorem raise_cksel (e : EventCode) (s : State) : (s.raise e).cksel = s.cksel := rfl
@[simp] theorem raise_events (e : EventCode) (s : State) : (s.raise e).events = s.events ||| e.bit := rfl
@[simp] theorem raise_irqEn (e : EventCode) (s : State) : (s.raise e).irqEn = s.irqEn := rfl
@[simp] theorem raise_lastCause (e : EventCode) (s : State) : (s.raise e).lastCause = s.lastCause := rfl
@[simp] theorem raise_discardCnt (e : EventCode) (s : State) : (s.raise e).discardCnt = s.discardCnt := rfl
@[simp] theorem raise_resyncCnt (e : EventCode) (s : State) : (s.raise e).resyncCnt = s.resyncCnt := rfl
@[simp] theorem raise_synclossCnt (e : EventCode) (s : State) : (s.raise e).synclossCnt = s.synclossCnt := rfl
@[simp] theorem raise_frameCnt (e : EventCode) (s : State) : (s.raise e).frameCnt = s.frameCnt := rfl
@[simp] theorem raise_ckerrCnt (e : EventCode) (s : State) : (s.raise e).ckerrCnt = s.ckerrCnt := rfl
@[simp] theorem raise_extlenCnt (e : EventCode) (s : State) : (s.raise e).extlenCnt = s.extlenCnt := rfl
@[simp] theorem raise_lastFrame (e : EventCode) (s : State) : (s.raise e).lastFrame = s.lastFrame := rfl
@[simp] theorem raise_recStatus (e : EventCode) (s : State) : (s.raise e).recStatus = s.recStatus := rfl
@[simp] theorem raise_recSeq (e : EventCode) (s : State) : (s.raise e).recSeq = s.recSeq := rfl
@[simp] theorem raise_avail (e : EventCode) (s : State) : (s.raise e).avail = s.avail := rfl
@[simp] theorem raise_fields (e : EventCode) (s : State) : (s.raise e).fields = s.fields := rfl
@[simp] theorem raise_work (e : EventCode) (s : State) : (s.raise e).work = s.work := rfl
@[simp] theorem raise_raised (e : EventCode) (s : State) : (s.raise e).raised = e :: s.raised := rfl
@[simp] theorem raise_out (e : EventCode) (s : State) : (s.raise e).out = s.out := rfl
@[simp] theorem raise_trace (e : EventCode) (s : State) : (s.raise e).trace = s.trace := rfl
@[simp] theorem raise_inputs (e : EventCode) (s : State) : (s.raise e).inputs = s.inputs := rfl
@[simp] theorem raise_draws (e : EventCode) (s : State) : (s.raise e).draws = s.draws := rfl

/-! ### `emit` -/

@[simp] theorem emit_fst (e : OutEvent) (s : State) : (s.emit e).fst = s.fst := rfl
@[simp] theorem emit_sync (e : OutEvent) (s : State) : (s.emit e).sync = s.sync := rfl
@[simp] theorem emit_fbuf (e : OutEvent) (s : State) : (s.emit e).fbuf = s.fbuf := rfl
@[simp] theorem emit_fidx (e : OutEvent) (s : State) : (s.emit e).fidx = s.fidx := rfl
@[simp] theorem emit_curLen (e : OutEvent) (s : State) : (s.emit e).curLen = s.curLen := rfl
@[simp] theorem emit_acc (e : OutEvent) (s : State) : (s.emit e).acc = s.acc := rfl
@[simp] theorem emit_skipRem (e : OutEvent) (s : State) : (s.emit e).skipRem = s.skipRem := rfl
@[simp] theorem emit_cksel (e : OutEvent) (s : State) : (s.emit e).cksel = s.cksel := rfl
@[simp] theorem emit_events (e : OutEvent) (s : State) : (s.emit e).events = s.events := rfl
@[simp] theorem emit_irqEn (e : OutEvent) (s : State) : (s.emit e).irqEn = s.irqEn := rfl
@[simp] theorem emit_lastCause (e : OutEvent) (s : State) : (s.emit e).lastCause = s.lastCause := rfl
@[simp] theorem emit_discardCnt (e : OutEvent) (s : State) : (s.emit e).discardCnt = s.discardCnt := rfl
@[simp] theorem emit_resyncCnt (e : OutEvent) (s : State) : (s.emit e).resyncCnt = s.resyncCnt := rfl
@[simp] theorem emit_synclossCnt (e : OutEvent) (s : State) : (s.emit e).synclossCnt = s.synclossCnt := rfl
@[simp] theorem emit_frameCnt (e : OutEvent) (s : State) : (s.emit e).frameCnt = s.frameCnt := rfl
@[simp] theorem emit_ckerrCnt (e : OutEvent) (s : State) : (s.emit e).ckerrCnt = s.ckerrCnt := rfl
@[simp] theorem emit_extlenCnt (e : OutEvent) (s : State) : (s.emit e).extlenCnt = s.extlenCnt := rfl
@[simp] theorem emit_lastFrame (e : OutEvent) (s : State) : (s.emit e).lastFrame = s.lastFrame := rfl
@[simp] theorem emit_recStatus (e : OutEvent) (s : State) : (s.emit e).recStatus = s.recStatus := rfl
@[simp] theorem emit_recSeq (e : OutEvent) (s : State) : (s.emit e).recSeq = s.recSeq := rfl
@[simp] theorem emit_avail (e : OutEvent) (s : State) : (s.emit e).avail = s.avail := rfl
@[simp] theorem emit_fields (e : OutEvent) (s : State) : (s.emit e).fields = s.fields := rfl
@[simp] theorem emit_work (e : OutEvent) (s : State) : (s.emit e).work = s.work := rfl
@[simp] theorem emit_raised (e : OutEvent) (s : State) : (s.emit e).raised = s.raised := rfl
@[simp] theorem emit_out (e : OutEvent) (s : State) : (s.emit e).out = { s.out with emitted := s.out.emitted ++ [e] } := rfl
@[simp] theorem emit_trace (e : OutEvent) (s : State) : (s.emit e).trace = s.trace := rfl
@[simp] theorem emit_inputs (e : OutEvent) (s : State) : (s.emit e).inputs = s.inputs := rfl
@[simp] theorem emit_draws (e : OutEvent) (s : State) : (s.emit e).draws = s.draws := rfl

/-! ### `putRdata` -/

@[simp] theorem putRdata_fst (v : Word) (s : State) : (s.putRdata v).fst = s.fst := rfl
@[simp] theorem putRdata_sync (v : Word) (s : State) : (s.putRdata v).sync = s.sync := rfl
@[simp] theorem putRdata_fbuf (v : Word) (s : State) : (s.putRdata v).fbuf = s.fbuf := rfl
@[simp] theorem putRdata_fidx (v : Word) (s : State) : (s.putRdata v).fidx = s.fidx := rfl
@[simp] theorem putRdata_curLen (v : Word) (s : State) : (s.putRdata v).curLen = s.curLen := rfl
@[simp] theorem putRdata_acc (v : Word) (s : State) : (s.putRdata v).acc = s.acc := rfl
@[simp] theorem putRdata_skipRem (v : Word) (s : State) : (s.putRdata v).skipRem = s.skipRem := rfl
@[simp] theorem putRdata_cksel (v : Word) (s : State) : (s.putRdata v).cksel = s.cksel := rfl
@[simp] theorem putRdata_events (v : Word) (s : State) : (s.putRdata v).events = s.events := rfl
@[simp] theorem putRdata_irqEn (v : Word) (s : State) : (s.putRdata v).irqEn = s.irqEn := rfl
@[simp] theorem putRdata_lastCause (v : Word) (s : State) : (s.putRdata v).lastCause = s.lastCause := rfl
@[simp] theorem putRdata_discardCnt (v : Word) (s : State) : (s.putRdata v).discardCnt = s.discardCnt := rfl
@[simp] theorem putRdata_resyncCnt (v : Word) (s : State) : (s.putRdata v).resyncCnt = s.resyncCnt := rfl
@[simp] theorem putRdata_synclossCnt (v : Word) (s : State) : (s.putRdata v).synclossCnt = s.synclossCnt := rfl
@[simp] theorem putRdata_frameCnt (v : Word) (s : State) : (s.putRdata v).frameCnt = s.frameCnt := rfl
@[simp] theorem putRdata_ckerrCnt (v : Word) (s : State) : (s.putRdata v).ckerrCnt = s.ckerrCnt := rfl
@[simp] theorem putRdata_extlenCnt (v : Word) (s : State) : (s.putRdata v).extlenCnt = s.extlenCnt := rfl
@[simp] theorem putRdata_lastFrame (v : Word) (s : State) : (s.putRdata v).lastFrame = s.lastFrame := rfl
@[simp] theorem putRdata_recStatus (v : Word) (s : State) : (s.putRdata v).recStatus = s.recStatus := rfl
@[simp] theorem putRdata_recSeq (v : Word) (s : State) : (s.putRdata v).recSeq = s.recSeq := rfl
@[simp] theorem putRdata_avail (v : Word) (s : State) : (s.putRdata v).avail = s.avail := rfl
@[simp] theorem putRdata_fields (v : Word) (s : State) : (s.putRdata v).fields = s.fields := rfl
@[simp] theorem putRdata_work (v : Word) (s : State) : (s.putRdata v).work = s.work := rfl
@[simp] theorem putRdata_raised (v : Word) (s : State) : (s.putRdata v).raised = s.raised := rfl
@[simp] theorem putRdata_out (v : Word) (s : State) : (s.putRdata v).out = { s.out with rdata := some v } := rfl
@[simp] theorem putRdata_trace (v : Word) (s : State) : (s.putRdata v).trace = s.trace := rfl
@[simp] theorem putRdata_inputs (v : Word) (s : State) : (s.putRdata v).inputs = s.inputs := rfl
@[simp] theorem putRdata_draws (v : Word) (s : State) : (s.putRdata v).draws = s.draws := rfl

/-! ### `beginStep` -/

@[simp] theorem beginStep_fst (s : State) : (s.beginStep).fst = s.fst := rfl
@[simp] theorem beginStep_sync (s : State) : (s.beginStep).sync = s.sync := rfl
@[simp] theorem beginStep_fbuf (s : State) : (s.beginStep).fbuf = s.fbuf := rfl
@[simp] theorem beginStep_fidx (s : State) : (s.beginStep).fidx = s.fidx := rfl
@[simp] theorem beginStep_curLen (s : State) : (s.beginStep).curLen = s.curLen := rfl
@[simp] theorem beginStep_acc (s : State) : (s.beginStep).acc = s.acc := rfl
@[simp] theorem beginStep_skipRem (s : State) : (s.beginStep).skipRem = s.skipRem := rfl
@[simp] theorem beginStep_cksel (s : State) : (s.beginStep).cksel = s.cksel := rfl
@[simp] theorem beginStep_events (s : State) : (s.beginStep).events = s.events := rfl
@[simp] theorem beginStep_irqEn (s : State) : (s.beginStep).irqEn = s.irqEn := rfl
@[simp] theorem beginStep_lastCause (s : State) : (s.beginStep).lastCause = s.lastCause := rfl
@[simp] theorem beginStep_discardCnt (s : State) : (s.beginStep).discardCnt = s.discardCnt := rfl
@[simp] theorem beginStep_resyncCnt (s : State) : (s.beginStep).resyncCnt = s.resyncCnt := rfl
@[simp] theorem beginStep_synclossCnt (s : State) : (s.beginStep).synclossCnt = s.synclossCnt := rfl
@[simp] theorem beginStep_frameCnt (s : State) : (s.beginStep).frameCnt = s.frameCnt := rfl
@[simp] theorem beginStep_ckerrCnt (s : State) : (s.beginStep).ckerrCnt = s.ckerrCnt := rfl
@[simp] theorem beginStep_extlenCnt (s : State) : (s.beginStep).extlenCnt = s.extlenCnt := rfl
@[simp] theorem beginStep_lastFrame (s : State) : (s.beginStep).lastFrame = s.lastFrame := rfl
@[simp] theorem beginStep_recStatus (s : State) : (s.beginStep).recStatus = s.recStatus := rfl
@[simp] theorem beginStep_recSeq (s : State) : (s.beginStep).recSeq = s.recSeq := rfl
@[simp] theorem beginStep_avail (s : State) : (s.beginStep).avail = s.avail := rfl
@[simp] theorem beginStep_fields (s : State) : (s.beginStep).fields = s.fields := rfl
@[simp] theorem beginStep_work (s : State) : (s.beginStep).work = s.work := rfl
@[simp] theorem beginStep_raised (s : State) : (s.beginStep).raised = [] := rfl
@[simp] theorem beginStep_out (s : State) : (s.beginStep).out = ⟨none, [], s.irq⟩ := rfl
@[simp] theorem beginStep_trace (s : State) : (s.beginStep).trace = s.trace := rfl
@[simp] theorem beginStep_inputs (s : State) : (s.beginStep).inputs = s.inputs := rfl
@[simp] theorem beginStep_draws (s : State) : (s.beginStep).draws = s.draws := rfl

/-! ### `endStep` -/

@[simp] theorem endStep_fst (s : State) : (s.endStep).fst = s.fst := rfl
@[simp] theorem endStep_sync (s : State) : (s.endStep).sync = s.sync := rfl
@[simp] theorem endStep_fbuf (s : State) : (s.endStep).fbuf = s.fbuf := rfl
@[simp] theorem endStep_fidx (s : State) : (s.endStep).fidx = s.fidx := rfl
@[simp] theorem endStep_curLen (s : State) : (s.endStep).curLen = s.curLen := rfl
@[simp] theorem endStep_acc (s : State) : (s.endStep).acc = s.acc := rfl
@[simp] theorem endStep_skipRem (s : State) : (s.endStep).skipRem = s.skipRem := rfl
@[simp] theorem endStep_cksel (s : State) : (s.endStep).cksel = s.cksel := rfl
@[simp] theorem endStep_events (s : State) : (s.endStep).events = s.events := rfl
@[simp] theorem endStep_irqEn (s : State) : (s.endStep).irqEn = s.irqEn := rfl
@[simp] theorem endStep_lastCause (s : State) : (s.endStep).lastCause = causeAfter s.raised s.lastCause := rfl
@[simp] theorem endStep_discardCnt (s : State) : (s.endStep).discardCnt = s.discardCnt := rfl
@[simp] theorem endStep_resyncCnt (s : State) : (s.endStep).resyncCnt = s.resyncCnt := rfl
@[simp] theorem endStep_synclossCnt (s : State) : (s.endStep).synclossCnt = s.synclossCnt := rfl
@[simp] theorem endStep_frameCnt (s : State) : (s.endStep).frameCnt = s.frameCnt := rfl
@[simp] theorem endStep_ckerrCnt (s : State) : (s.endStep).ckerrCnt = s.ckerrCnt := rfl
@[simp] theorem endStep_extlenCnt (s : State) : (s.endStep).extlenCnt = s.extlenCnt := rfl
@[simp] theorem endStep_lastFrame (s : State) : (s.endStep).lastFrame = s.lastFrame := rfl
@[simp] theorem endStep_recStatus (s : State) : (s.endStep).recStatus = s.recStatus := rfl
@[simp] theorem endStep_recSeq (s : State) : (s.endStep).recSeq = s.recSeq := rfl
@[simp] theorem endStep_avail (s : State) : (s.endStep).avail = s.avail := rfl
@[simp] theorem endStep_fields (s : State) : (s.endStep).fields = s.fields := rfl
@[simp] theorem endStep_work (s : State) : (s.endStep).work = s.work := rfl
@[simp] theorem endStep_raised (s : State) : (s.endStep).raised = s.raised := rfl
@[simp] theorem endStep_out (s : State) : (s.endStep).out = { s.out with irq := s.irq } := rfl
@[simp] theorem endStep_trace (s : State) : (s.endStep).trace = s.trace := rfl
@[simp] theorem endStep_inputs (s : State) : (s.endStep).inputs = s.inputs := rfl
@[simp] theorem endStep_draws (s : State) : (s.endStep).draws = s.draws := rfl

/-! ### `discard` -/

@[simp] theorem discard_fst (s : State) : (s.discard).fst = s.fst := rfl
@[simp] theorem discard_sync (s : State) : (s.discard).sync = s.sync := rfl
@[simp] theorem discard_fbuf (s : State) : (s.discard).fbuf = s.fbuf := rfl
@[simp] theorem discard_fidx (s : State) : (s.discard).fidx = s.fidx := rfl
@[simp] theorem discard_curLen (s : State) : (s.discard).curLen = s.curLen := rfl
@[simp] theorem discard_acc (s : State) : (s.discard).acc = s.acc := rfl
@[simp] theorem discard_skipRem (s : State) : (s.discard).skipRem = s.skipRem := rfl
@[simp] theorem discard_cksel (s : State) : (s.discard).cksel = s.cksel := rfl
@[simp] theorem discard_events (s : State) : (s.discard).events = s.events ||| EventCode.discard.bit := rfl
@[simp] theorem discard_irqEn (s : State) : (s.discard).irqEn = s.irqEn := rfl
@[simp] theorem discard_lastCause (s : State) : (s.discard).lastCause = s.lastCause := rfl
@[simp] theorem discard_discardCnt (s : State) : (s.discard).discardCnt = s.discardCnt + 1 := rfl
@[simp] theorem discard_resyncCnt (s : State) : (s.discard).resyncCnt = s.resyncCnt := rfl
@[simp] theorem discard_synclossCnt (s : State) : (s.discard).synclossCnt = s.synclossCnt := rfl
@[simp] theorem discard_frameCnt (s : State) : (s.discard).frameCnt = s.frameCnt := rfl
@[simp] theorem discard_ckerrCnt (s : State) : (s.discard).ckerrCnt = s.ckerrCnt := rfl
@[simp] theorem discard_extlenCnt (s : State) : (s.discard).extlenCnt = s.extlenCnt := rfl
@[simp] theorem discard_lastFrame (s : State) : (s.discard).lastFrame = s.lastFrame := rfl
@[simp] theorem discard_recStatus (s : State) : (s.discard).recStatus = s.recStatus := rfl
@[simp] theorem discard_recSeq (s : State) : (s.discard).recSeq = s.recSeq := rfl
@[simp] theorem discard_avail (s : State) : (s.discard).avail = s.avail := rfl
@[simp] theorem discard_fields (s : State) : (s.discard).fields = s.fields := rfl
@[simp] theorem discard_work (s : State) : (s.discard).work = s.work := rfl
@[simp] theorem discard_raised (s : State) : (s.discard).raised = .discard :: s.raised := rfl
@[simp] theorem discard_out (s : State) : (s.discard).out = s.out := rfl
@[simp] theorem discard_trace (s : State) : (s.discard).trace = s.trace := rfl
@[simp] theorem discard_inputs (s : State) : (s.discard).inputs = s.inputs := rfl
@[simp] theorem discard_draws (s : State) : (s.discard).draws = s.draws := rfl

/-! ### `raiseIf`: as `raise`, under its condition -/

@[simp] theorem raiseIf_fst (c : Bool) (e : EventCode) (s : State) : (s.raiseIf c e).fst = s.fst := by
  cases c <;> rfl
@[simp] theorem raiseIf_sync (c : Bool) (e : EventCode) (s : State) : (s.raiseIf c e).sync = s.sync := by
  cases c <;> rfl
@[simp] theorem raiseIf_fbuf (c : Bool) (e : EventCode) (s : State) : (s.raiseIf c e).fbuf = s.fbuf := by
  cases c <;> rfl
@[simp] theorem raiseIf_fidx (c : Bool) (e : EventCode) (s : State) : (s.raiseIf c e).fidx = s.fidx := by
  cases c <;> rfl
@[simp] theorem raiseIf_curLen (c : Bool) (e : EventCode) (s : State) : (s.raiseIf c e).curLen = s.curLen := by
  cases c <;> rfl
@[simp] theorem raiseIf_acc (c : Bool) (e : EventCode) (s : State) : (s.raiseIf c e).acc = s.acc := by
  cases c <;> rfl
@[simp] theorem raiseIf_skipRem (c : Bool) (e : EventCode) (s : State) : (s.raiseIf c e).skipRem = s.skipRem := by
  cases c <;> rfl
@[simp] theorem raiseIf_cksel (c : Bool) (e : EventCode) (s : State) : (s.raiseIf c e).cksel = s.cksel := by
  cases c <;> rfl
@[simp] theorem raiseIf_events (c : Bool) (e : EventCode) (s : State) :
    (s.raiseIf c e).events = if c then s.events ||| e.bit else s.events := by cases c <;> rfl
@[simp] theorem raiseIf_irqEn (c : Bool) (e : EventCode) (s : State) : (s.raiseIf c e).irqEn = s.irqEn := by
  cases c <;> rfl
@[simp] theorem raiseIf_lastCause (c : Bool) (e : EventCode) (s : State) : (s.raiseIf c e).lastCause = s.lastCause := by
  cases c <;> rfl
@[simp] theorem raiseIf_discardCnt (c : Bool) (e : EventCode) (s : State) : (s.raiseIf c e).discardCnt = s.discardCnt := by
  cases c <;> rfl
@[simp] theorem raiseIf_resyncCnt (c : Bool) (e : EventCode) (s : State) : (s.raiseIf c e).resyncCnt = s.resyncCnt := by
  cases c <;> rfl
@[simp] theorem raiseIf_synclossCnt (c : Bool) (e : EventCode) (s : State) : (s.raiseIf c e).synclossCnt = s.synclossCnt := by
  cases c <;> rfl
@[simp] theorem raiseIf_frameCnt (c : Bool) (e : EventCode) (s : State) : (s.raiseIf c e).frameCnt = s.frameCnt := by
  cases c <;> rfl
@[simp] theorem raiseIf_ckerrCnt (c : Bool) (e : EventCode) (s : State) : (s.raiseIf c e).ckerrCnt = s.ckerrCnt := by
  cases c <;> rfl
@[simp] theorem raiseIf_extlenCnt (c : Bool) (e : EventCode) (s : State) : (s.raiseIf c e).extlenCnt = s.extlenCnt := by
  cases c <;> rfl
@[simp] theorem raiseIf_lastFrame (c : Bool) (e : EventCode) (s : State) : (s.raiseIf c e).lastFrame = s.lastFrame := by
  cases c <;> rfl
@[simp] theorem raiseIf_recStatus (c : Bool) (e : EventCode) (s : State) : (s.raiseIf c e).recStatus = s.recStatus := by
  cases c <;> rfl
@[simp] theorem raiseIf_recSeq (c : Bool) (e : EventCode) (s : State) : (s.raiseIf c e).recSeq = s.recSeq := by
  cases c <;> rfl
@[simp] theorem raiseIf_avail (c : Bool) (e : EventCode) (s : State) : (s.raiseIf c e).avail = s.avail := by
  cases c <;> rfl
@[simp] theorem raiseIf_fields (c : Bool) (e : EventCode) (s : State) : (s.raiseIf c e).fields = s.fields := by
  cases c <;> rfl
@[simp] theorem raiseIf_work (c : Bool) (e : EventCode) (s : State) : (s.raiseIf c e).work = s.work := by
  cases c <;> rfl
@[simp] theorem raiseIf_raised (c : Bool) (e : EventCode) (s : State) :
    (s.raiseIf c e).raised = if c then e :: s.raised else s.raised := by cases c <;> rfl
@[simp] theorem raiseIf_out (c : Bool) (e : EventCode) (s : State) : (s.raiseIf c e).out = s.out := by
  cases c <;> rfl
@[simp] theorem raiseIf_trace (c : Bool) (e : EventCode) (s : State) : (s.raiseIf c e).trace = s.trace := by
  cases c <;> rfl
@[simp] theorem raiseIf_inputs (c : Bool) (e : EventCode) (s : State) : (s.raiseIf c e).inputs = s.inputs := by
  cases c <;> rfl
@[simp] theorem raiseIf_draws (c : Bool) (e : EventCode) (s : State) : (s.raiseIf c e).draws = s.draws := by
  cases c <;> rfl

end Sys2Proof.Machine.State
end

