-- ==== Sys2Proof/Laws/Ops.lean ====
section
/-! SUPPORT. For each shared operation, one lemma that says once all it can do: provers cite these instead of
unfolding. -/

namespace Sys2Proof.Machine

/-! ### The frame of a step -/

/-- A step completes exactly when its effect does, and ends as `endStep` says. -/
theorem runStep_next_iff {f : State → Result} {s t : State} :
    runStep f s = .next t ↔ ∃ u, f s.beginStep = .next u ∧ t = u.endStep := by
  unfold runStep
  split
  · rename_i u hu
    simp [hu, eq_comm]
  · rename_i r hr
    simp [hr]
  · rename_i r hr
    simp [hr]

/-- A step whose effect completes. -/
theorem runStep_of_next {f : State → Result} {s u : State} (h : f s.beginStep = .next u) :
    runStep f s = .next u.endStep := by
  simp [runStep, h]

/-- A total effect always completes. -/
@[simp] theorem runStep_total (g : State → State) (s : State) :
    runStep (fun t => .next (g t)) s = .next (g s.beginStep).endStep := rfl

/-- What `observe` answers. -/
theorem observe_next_iff {r : Result} {t : State} :
    observe r = .next t ↔ ∃ u, r = .next u ∧ t = { u with trace := u.trace ++ [u.out] } := by
  cases r <;> simp [observe, eq_comm]

/-- Everything a step can do: stay idle, reset, or run one decoded command. -/
theorem step_next_cases {s t : State} (h : step s = .next t) :
    (s.inputs = [] ∧ t = s) ∨
    (∃ rest, s.inputs = .rst :: rest ∧ t = s.hardReset rest) ∨
    (∃ cmd wdata rest u, s.inputs = .command cmd wdata :: rest ∧
      exec (decodeCommand cmd wdata) { s with inputs := rest } = .next u ∧
      t = { u with trace := u.trace ++ [u.out] }) := by
  unfold step at h
  split at h
  · rename_i hs
    injection h with h
    exact .inl ⟨hs, h.symm⟩
  · rename_i rest hs
    injection h with h
    exact .inr (.inl ⟨rest, hs, h.symm⟩)
  · rename_i cmd wdata rest hs
    obtain ⟨u, hu, ht⟩ := observe_next_iff.mp h
    exact .inr (.inr ⟨cmd, wdata, rest, u, hs, hu, ht⟩)

/-- A step with a command presented runs it. -/
theorem step_command {s : State} {cmd : Half} {wdata : Word} {rest : List Input}
    (h : s.inputs = .command cmd wdata :: rest) :
    step s = observe (exec (decodeCommand cmd wdata) { s with inputs := rest }) := by
  simp [step, h]

/-- A command word decodes to one of the seven host commands of the table. -/
theorem decodeCommand_cases (cmd : Half) (wdata : Word) :
    (∃ d, decodeCommand cmd wdata = .byte d) ∨ (∃ i, decodeCommand cmd wdata = .rd i) ∨
    (∃ i, decodeCommand cmd wdata = .wr i wdata) ∨ (∃ x, decodeCommand cmd wdata = .reservedByte x) ∨
    (∃ x, decodeCommand cmd wdata = .reservedRead x) ∨ (∃ x, decodeCommand cmd wdata = .reservedWrite x) ∨
    (∃ x, decodeCommand cmd wdata = .reservedOp3 x) := by
  unfold decodeCommand
  repeat' split
  all_goals simp

/-! ### The emitted events and `FRAME_OUT_PORT` -/

/-- A finished step hands the port its own events, in emission order, after all that it was handed before. -/
theorem State.portAfter_append {Port : Type} (port : Config.FrameOutPort OutEvent Port) (s : State) (o : StepOut) :
    State.portAfter port { s with trace := s.trace ++ [o] } = o.emitted.foldl port.accept (s.portAfter port) := by
  simp [State.portAfter, State.emitted, List.flatMap_append]

/-- What a port holds depends on the emitted events alone. -/
theorem State.portAfter_congr {Port : Type} (port : Config.FrameOutPort OutEvent Port) {s t : State}
    (h : s.trace = t.trace) : s.portAfter port = t.portAfter port := by
  simp [State.portAfter, State.emitted, h]

/-- A queueing port holds the emitted events. -/
theorem State.portAfter_fifo (s : State) : s.portAfter (Config.FrameOutPort.fifo OutEvent) = s.emitted := by
  have h : ∀ (es queue : List OutEvent),
      es.foldl (Config.FrameOutPort.fifo OutEvent).accept queue = queue ++ es := by
    intro es
    induction es with
    | nil => simp
    | cons e es ih => intro queue; rw [List.foldl_cons, ih]; simp [Config.FrameOutPort.fifo]
  exact h s.emitted []

/-! ### The frame buffer -/

/-- A written byte below `FIDX` is read as written, whatever the free values are. -/
theorem State.byteAt_of_read {s : State} {a : Nat} {b : Byte} (ha : a < s.fidx.toNat) (h : s.fbuf.read? a = some b) :
    s.byteAt a = b := by
  simp [State.byteAt, ha, h]

@[simp] theorem State.payload_length (s : State) : s.payload.length = s.curLen.toNat := by
  simp [State.payload]

/-! ### The synchronizer -/

/-- What losing synchronization does. -/
theorem State.loseSync_eq (s : State) :
    s.loseSync = { s with
      sync := false
      synclossCnt := if s.sync then s.synclossCnt + 1 else s.synclossCnt
      events := if s.sync then s.events ||| EventCode.syncLost.bit else s.events
      raised := if s.sync then .syncLost :: s.raised else s.raised } := by
  obtain ⟨h⟩ | ⟨h⟩ : s.sync = true ∨ s.sync = false := by cases s.sync <;> simp
  · simp [State.loseSync, State.raise, h]
  · cases s
    simp_all [State.loseSync]

/-- A payload byte with a position for it: it is stored, counted and summed. -/
theorem State.payloadByte_of_lt {s : State} {b : Byte} (h : s.fidx.toNat < Config.fbufSize) :
    s.payloadByte b = .next { s with
      fbuf := s.fbuf.write s.fidx.toNat b
      fidx := s.fidx + 1
      acc := s.acc + b
      fst := if s.fidx + 1 = 4 + s.curLen.setWidth 9 then .cks else s.fst } := by
  by_cases hc : s.fidx + 1 = 4 + s.curLen.setWidth 9 <;>
    simp only [State.payloadByte, h, hc, State.storeByte, if_true, if_false]

/-- All a payload byte can do; without a position for it, it stops. -/
theorem State.payloadByte_next {s t : State} {b : Byte} (h : s.payloadByte b = .next t) :
    s.fidx.toNat < Config.fbufSize ∧
    t = { s with
      fbuf := s.fbuf.write s.fidx.toNat b
      fidx := s.fidx + 1
      acc := s.acc + b
      fst := if s.fidx + 1 = 4 + s.curLen.setWidth 9 then .cks else s.fst } := by
  by_cases hlt : s.fidx.toNat < Config.fbufSize
  · rw [State.payloadByte_of_lt hlt] at h
    injection h with h
    exact ⟨hlt, h.symm⟩
  · simp [State.payloadByte, hlt] at h

/-! ### The commit -/


/-! What a record commit writes, and what it leaves alone (R162). -/

@[simp] theorem State.recordCommit_fst (p : List Byte) (s : State) : (s.recordCommit p).fst = s.fst := by
  simp [State.recordCommit]
@[simp] theorem State.recordCommit_sync (p : List Byte) (s : State) : (s.recordCommit p).sync = s.sync := by
  simp [State.recordCommit]
@[simp] theorem State.recordCommit_fbuf (p : List Byte) (s : State) : (s.recordCommit p).fbuf = s.fbuf := by
  simp [State.recordCommit]
@[simp] theorem State.recordCommit_fidx (p : List Byte) (s : State) : (s.recordCommit p).fidx = s.fidx := by
  simp [State.recordCommit]
@[simp] theorem State.recordCommit_curLen (p : List Byte) (s : State) : (s.recordCommit p).curLen = s.curLen := by
  simp [State.recordCommit]
@[simp] theorem State.recordCommit_acc (p : List Byte) (s : State) : (s.recordCommit p).acc = s.acc := by
  simp [State.recordCommit]
@[simp] theorem State.recordCommit_skipRem (p : List Byte) (s : State) : (s.recordCommit p).skipRem = s.skipRem := by
  simp [State.recordCommit]
@[simp] theorem State.recordCommit_cksel (p : List Byte) (s : State) : (s.recordCommit p).cksel = s.cksel := by
  simp [State.recordCommit]
@[simp] theorem State.recordCommit_irqEn (p : List Byte) (s : State) : (s.recordCommit p).irqEn = s.irqEn := by
  simp [State.recordCommit]
@[simp] theorem State.recordCommit_lastCause (p : List Byte) (s : State) : (s.recordCommit p).lastCause = s.lastCause := by
  simp [State.recordCommit]
@[simp] theorem State.recordCommit_discardCnt (p : List Byte) (s : State) : (s.recordCommit p).discardCnt = s.discardCnt := by
  simp [State.recordCommit]
@[simp] theorem State.recordCommit_resyncCnt (p : List Byte) (s : State) : (s.recordCommit p).resyncCnt = s.resyncCnt := by
  simp [State.recordCommit]
@[simp] theorem State.recordCommit_synclossCnt (p : List Byte) (s : State) : (s.recordCommit p).synclossCnt = s.synclossCnt := by
  simp [State.recordCommit]
@[simp] theorem State.recordCommit_frameCnt (p : List Byte) (s : State) : (s.recordCommit p).frameCnt = s.frameCnt := by
  simp [State.recordCommit]
@[simp] theorem State.recordCommit_ckerrCnt (p : List Byte) (s : State) : (s.recordCommit p).ckerrCnt = s.ckerrCnt := by
  simp [State.recordCommit]
@[simp] theorem State.recordCommit_extlenCnt (p : List Byte) (s : State) : (s.recordCommit p).extlenCnt = s.extlenCnt := by
  simp [State.recordCommit]
@[simp] theorem State.recordCommit_lastFrame (p : List Byte) (s : State) : (s.recordCommit p).lastFrame = s.lastFrame := by
  simp [State.recordCommit]
@[simp] theorem State.recordCommit_trace (p : List Byte) (s : State) : (s.recordCommit p).trace = s.trace := by
  simp [State.recordCommit]
@[simp] theorem State.recordCommit_inputs (p : List Byte) (s : State) : (s.recordCommit p).inputs = s.inputs := by
  simp [State.recordCommit]
@[simp] theorem State.recordCommit_draws (p : List Byte) (s : State) : (s.recordCommit p).draws = s.draws := by
  simp [State.recordCommit]
@[simp] theorem State.recordCommit_fields (p : List Byte) (s : State) :
    (s.recordCommit p).fields = (tlvDecode p).regs := by
  simp [State.recordCommit]
@[simp] theorem State.recordCommit_avail (p : List Byte) (s : State) :
    (s.recordCommit p).avail = (tlvDecode p).av.setWidth 32 := by
  simp [State.recordCommit]
@[simp] theorem State.recordCommit_recStatus (p : List Byte) (s : State) :
    (s.recordCommit p).recStatus = packRecStatus (tlvDecode p) := by
  simp [State.recordCommit]
@[simp] theorem State.recordCommit_recSeq (p : List Byte) (s : State) :
    (s.recordCommit p).recSeq = s.recSeq + 1 := by
  simp [State.recordCommit]
@[simp] theorem State.recordCommit_work (p : List Byte) (s : State) :
    (s.recordCommit p).work = TlvWork.init := by
  simp [State.recordCommit]
@[simp] theorem State.recordCommit_out (p : List Byte) (s : State) :
    (s.recordCommit p).out = { s.out with
      emitted := s.out.emitted ++ [.recordOut (s.recSeq + 1) ((tlvDecode p).av.setWidth 32)
        (packRecStatus (tlvDecode p)) (tlvDecode p).regs] } := by
  simp [State.recordCommit]

/-- The events a record commit raises, the latest first (R162). -/
def commitRaises (pending : Bool) (w : TlvWork) : List EventCode :=
  (if w.lg then [.lenLong] else []) ++ (if w.sh then [.lenShort] else []) ++ (if w.un then [.unknownId] else []) ++
    (if w.tr then [.trunc] else []) ++ [.recDone] ++ (if pending then [.recOverrun] else [])

@[simp] theorem State.recordCommit_raised (p : List Byte) (s : State) :
    (s.recordCommit p).raised = commitRaises (s.recStatus.getLsbD 0) (tlvDecode p) ++ s.raised := by
  simp only [State.recordCommit, commitRaises, State.emit_raised, State.raiseIf_raised, State.raise_raised]
  cases (tlvDecode p).lg <;> cases (tlvDecode p).sh <;> cases (tlvDecode p).un <;> cases (tlvDecode p).tr <;>
    cases s.recStatus.getLsbD 0 <;> rfl

/-- A valid commit completes exactly when the payload lies in `FBUF`, and does this. -/
theorem State.acceptFrame_next_iff {s t : State} {mid ck : Byte} {m : Bool} :
    s.acceptFrame mid ck m = .next t ↔
      s.PayloadFits ∧
      t = State.closeFrame
        (let u := State.emit (.frameOut mid s.curLen s.payload ck)
          (State.raise .frameOk { s.noteFrame mid ck with frameCnt := s.frameCnt + 1 })
        if m then u.recordCommit s.payload else u) := by
  unfold State.acceptFrame
  by_cases h : s.PayloadFits
  · simp only [h, if_true, true_and]
    exact ⟨fun e => by injection e with e; exact e.symm, fun e => by rw [e]; rfl⟩
  · simp [h]

/-- What a commit can do: reject the frame, or accept it (R144). -/
theorem State.commit_next {s t : State} {ck : Byte} (h : s.commit ck = .next t) :
    (ck ≠ ckExpected s.acc s.cksel ∧ t = s.rejectFrame (s.byteAt 2) ck) ∨
    (ck = ckExpected s.acc s.cksel ∧
      s.acceptFrame (s.byteAt 2) ck (decide (s.byteAt 2 = Config.measMid)) = .next t) := by
  unfold State.commit at h
  split at h
  · rename_i hne
    injection h with h
    exact .inl ⟨hne, h.symm⟩
  · rename_i heq
    exact .inr ⟨by simpa using heq, h⟩

end Sys2Proof.Machine
end

