-- ==== Sys2Proof/Laws/PerInstr.lean ====
section
/-! SUPPORT. Facts of each instruction as syntax, one lemma per constructor. -/

namespace Sys2Proof.Laws.TableFormat

/-- The encoding of a well-formed instruction has the fixed bits of its row of spec/opcode_table.json. -/
def Statement (i : Instr) : Prop :=
  i.WellFormed → (encode i).tableWord &&& i.row.mask = i.row.pattern

/-- Fixed bits, read from a bit vector. -/
theorem toNat_fixed {w : Nat} {c m p : BitVec w} (h : c &&& m = p) : c.toNat &&& m.toNat = p.toNat := by
  rw [← h, BitVec.toNat_and]

theorem high_append (h : BitVec 2) (x : BitVec 14) : (h ++ x) &&& 0xC000#16 = h ++ 0#14 := by
  apply BitVec.eq_of_getLsbD_eq
  intro i hi
  simp only [BitVec.getLsbD_and, BitVec.getLsbD_append, BitVec.getLsbD_zero]
  by_cases h14 : i < 14
  · have : (0xC000#16).getLsbD i = false := by interval_cases i <;> decide
    simp [h14, this]
  · have : (0xC000#16).getLsbD i = true := by interval_cases i <;> first | omega | decide
    simp [h14, this]

/-- The id bytes of a record, joined again. -/
theorem id_bytes (id : Half) : id.extractLsb' 8 8 ++ id.extractLsb' 0 8 = id := by
  apply BitVec.eq_of_getLsbD_eq
  intro i hi
  simp only [BitVec.getLsbD_append, BitVec.getLsbD_extractLsb']
  by_cases h8 : i < 8
  · simp [h8]
  · have : i - 8 < 8 := by omega
    simp [h8, this, show 8 + (i - 8) = i by omega]

theorem record_word (id : Half) (v : List Byte) : (Encoded.record (recordBytes id v)).tableWord = id.toNat := by
  rw [← congrArg BitVec.toNat (id_bytes id)]
  rfl

theorem record_fixed {id : Half} {v : List Byte} {m p : Nat} (h : id.toNat &&& m = p) :
    (Encoded.record (recordBytes id v)).tableWord &&& m = p := by
  rw [record_word, h]

theorem byte (d : Byte) : Statement (.byte d) := fun _ => by revert d; decide
theorem rd (i : BitVec 7) : Statement (.rd i) := fun _ => by revert i; decide
theorem wr (i : BitVec 7) (wdata : Word) : Statement (.wr i wdata) := fun _ => by
  have h : ∀ i : BitVec 7, (0b100000000#9 ++ i).toNat &&& 0xFF80 = 0x8000 := by decide
  exact h i
theorem reservedOp3 (x : BitVec 14) : Statement (.reservedOp3 x) := fun _ => toNat_fixed (high_append 3#2 x)
theorem reservedByte (x : BitVec 14) : Statement (.reservedByte x) := fun _ => toNat_fixed (high_append 0#2 x)
theorem reservedRead (x : BitVec 14) : Statement (.reservedRead x) := fun _ => toNat_fixed (high_append 1#2 x)
theorem reservedWrite (x : BitVec 14) : Statement (.reservedWrite x) := fun _ => toNat_fixed (high_append 2#2 x)
theorem frameMeas : Statement .frameMeas := fun _ => rfl
theorem frameOther (mid : Byte) : Statement (.frameOther mid) := fun _ => Nat.and_zero _
theorem lenStd (n : Byte) : Statement (.lenStd n) := fun _ => Nat.and_zero _
theorem lenExt : Statement .lenExt := fun _ => rfl
theorem tlvPktCnt (v : List Byte) : Statement (.tlvPktCnt v) := fun _ =>
  record_fixed (m := 0xFFFF) (p := 0x1020) (by decide)
theorem tlvSampleTime (v : List Byte) : Statement (.tlvSampleTime v) := fun _ =>
  record_fixed (m := 0xFFFF) (p := 0x1060) (by decide)
theorem tlvUtc (v : List Byte) : Statement (.tlvUtc v) := fun _ =>
  record_fixed (m := 0xFFFF) (p := 0x1010) (by decide)
theorem tlvEuler (v : List Byte) : Statement (.tlvEuler v) := fun _ =>
  record_fixed (m := 0xFFFF) (p := 0x2030) (by decide)
theorem tlvQuat (v : List Byte) : Statement (.tlvQuat v) := fun _ =>
  record_fixed (m := 0xFFFF) (p := 0x2010) (by decide)
theorem tlvAcc (v : List Byte) : Statement (.tlvAcc v) := fun _ =>
  record_fixed (m := 0xFFFF) (p := 0x4020) (by decide)
theorem tlvFacc (v : List Byte) : Statement (.tlvFacc v) := fun _ =>
  record_fixed (m := 0xFFFF) (p := 0x4030) (by decide)
theorem tlvRot (v : List Byte) : Statement (.tlvRot v) := fun _ =>
  record_fixed (m := 0xFFFF) (p := 0x8020) (by decide)
theorem tlvMag (v : List Byte) : Statement (.tlvMag v) := fun _ =>
  record_fixed (m := 0xFFFF) (p := 0xC020) (by decide)
theorem tlvLatLon (v : List Byte) : Statement (.tlvLatLon v) := fun _ =>
  record_fixed (m := 0xFFFF) (p := 0x5042) (by decide)
theorem tlvAlt (v : List Byte) : Statement (.tlvAlt v) := fun _ =>
  record_fixed (m := 0xFFFF) (p := 0x5022) (by decide)
theorem tlvVel (v : List Byte) : Statement (.tlvVel v) := fun _ =>
  record_fixed (m := 0xFFFF) (p := 0xD012) (by decide)
theorem tlvStatusWord (v : List Byte) : Statement (.tlvStatusWord v) := fun _ =>
  record_fixed (m := 0xFFFF) (p := 0xE020) (by decide)
theorem tlvTemp (v : List Byte) : Statement (.tlvTemp v) := fun _ =>
  record_fixed (m := 0xFFFF) (p := 0x0810) (by decide)
theorem tlvBaro (v : List Byte) : Statement (.tlvBaro v) := fun _ =>
  record_fixed (m := 0xFFFF) (p := 0x3010) (by decide)
theorem tlvDv (v : List Byte) : Statement (.tlvDv v) := fun _ =>
  record_fixed (m := 0xFFFF) (p := 0x4010) (by decide)
theorem tlvDq (v : List Byte) : Statement (.tlvDq v) := fun _ =>
  record_fixed (m := 0xFFFF) (p := 0x8030) (by decide)
theorem tlvUnknown (id : Half) (v : List Byte) : Statement (.tlvUnknown id v) := fun _ => Nat.and_zero _

end Sys2Proof.Laws.TableFormat
end

