-- ==== Sys2Proof/Laws/Tlv.lean ====
section
/-! SUPPORT. The laws of the TLV parser: what one record does to the decode, and what is read at a record boundary. -/

namespace Sys2Proof

/-- A whole record at the head of the bytes that are left is read as itself, whatever follows it. -/
theorem fetchRecord_recordBytes {id : Half} {v rest : List Byte} (h : v.length ≤ 255) :
    fetchRecord (recordBytes id v ++ rest) = .record id v := by
  have hl : (BitVec.ofNat 8 v.length).toNat = v.length := by
    simp only [BitVec.toNat_ofNat]; omega
  simp [recordBytes, fetchRecord, hl, Laws.TableFormat.id_bytes id]

@[simp] theorem recordBytes_length (id : Half) (v : List Byte) : (recordBytes id v).length = 3 + v.length := by
  simp [recordBytes]; omega

namespace Machine

/-- A record too short for its layout is counted, passed over and flagged (R166). -/
theorem TlvWork.known_of_short {f : Field} {v : List Byte} {w : TlvWork} (h : v.length < f.size) :
    w.known f v = { w with nrec := w.nrec + 1, off := w.off + 3 + v.length, sh := true } := by
  simp [TlvWork.known, TlvWork.advance, h]

/-- A record that fills its layout is extracted and made available (R161, R167). -/
theorem TlvWork.known_of_fits {f : Field} {v : List Byte} {w : TlvWork} (h : f.size ≤ v.length) :
    w.known f v = { w with
      nrec := w.nrec + 1, off := w.off + 3 + v.length
      lg := w.lg || decide (f.size < v.length)
      regs := extract v w.regs f
      av := w.av ||| (1#17 <<< f.number) } := by
  simp [TlvWork.known, TlvWork.advance, Nat.not_lt.2 h]

/-- Every pass advances the offset past the record (R161). -/
@[simp] theorem TlvWork.pass_off (id : Half) (v : List Byte) (w : TlvWork) :
    (w.pass id v).off = w.off + 3 + v.length := by
  unfold TlvWork.pass TlvWork.known TlvWork.unknown TlvWork.advance
  split
  · dsimp only; split <;> rfl
  · rfl

/-- Every pass counts its record (R161). -/
@[simp] theorem TlvWork.pass_nrec (id : Half) (v : List Byte) (w : TlvWork) :
    (w.pass id v).nrec = w.nrec + 1 := by
  unfold TlvWork.pass TlvWork.known TlvWork.unknown TlvWork.advance
  split
  · dsimp only; split <;> rfl
  · rfl

/-- No pass ends the decode (R161). -/
@[simp] theorem TlvWork.pass_tr (id : Half) (v : List Byte) (w : TlvWork) : (w.pass id v).tr = w.tr := by
  unfold TlvWork.pass TlvWork.known TlvWork.unknown TlvWork.advance
  split
  · dsimp only; split <;> rfl
  · rfl

/-- One turn of the decode loop at a whole record. -/
theorem tlvLoop_record {fuel : Nat} {p : List Byte} {w : TlvWork} {id : Half} {v : List Byte}
    (h : fetchRecord (p.drop w.off) = .record id v) : tlvLoop (fuel + 1) p w = tlvLoop fuel p (w.pass id v) := by
  simp [tlvLoop, h]

end Machine

end Sys2Proof
end

