-- ==== Sys2Proof/Tests/Slice0.lean ====
section
/-! SUPPORT. Tests: ill-formed terms refused, words of the spec decoded, one-step examples of the spec, and for every
statement with hypotheses a state and operands that meet them. Expected values are the spec's (the rule or vector of
spec/95_test_vectors.md is named), not the model's. -/

namespace Sys2Proof.Tests

open Sys2Proof.Machine

/-! ### Ill-formed terms are refused -/

/-- `0x00FA` is BYTE (R84). -/
theorem test_wf_reservedByte_is_no_byte : ¬ (Instr.reservedByte 0x00FA).WellFormed := by decide
/-- `0x407F` is READ (R84). -/
theorem test_wf_reservedRead_is_no_read : ¬ (Instr.reservedRead 0x007F).WellFormed := by decide
/-- `0x8002` is WRITE (R84). -/
theorem test_wf_reservedWrite_is_no_write : ¬ (Instr.reservedWrite 0x0002).WellFormed := by decide
/-- R90. -/
theorem test_wf_frameOther_is_no_measurement : ¬ (Instr.frameOther 0x36).WellFormed := by decide
/-- R88. -/
theorem test_wf_lenStd_is_not_extended : ¬ (Instr.lenStd 0xFF).WellFormed := by decide
/-- R92. -/
theorem test_wf_unknown_is_not_known : ¬ (Instr.tlvUnknown 0x1020 []).WellFormed := by decide
/-- A declared length is one byte (R91). -/
theorem test_wf_value_too_long : ¬ ValueFits (List.replicate 256 0) := by
  rw [ValueFits, List.length_replicate]; decide

theorem test_wf_value_longest : ValueFits (List.replicate 255 0) := by
  rw [ValueFits, List.length_replicate]

/-- A declared length is one byte (R91). -/
theorem test_wf_unknown_value_fits : ¬ (Instr.tlvUnknown 0x9999 (List.replicate 256 0)).WellFormed := fun h =>
  test_wf_value_too_long h.2
/-- A declared length is one byte, for every known id (R91). -/
theorem test_wf_value_fits (f : Field) : ¬ (f.instr (List.replicate 256 0)).WellFormed :=
  fun h => test_wf_value_too_long (by cases f <;> exact h)
theorem test_wf_longest_value (f : Field) : (f.instr (List.replicate 255 0)).WellFormed := by
  cases f <;> exact test_wf_value_longest

/-! ### Words of the spec, bit by bit -/

/-! Host command words (R80, R84; 95 section 2.1). -/

theorem test_decode_byte : decodeCommand 0b0000000011111010 0 = .byte 0xFA := by decide
theorem test_decode_rd : decodeCommand 0b0100000001111111 0 = .rd 127 := by decide
theorem test_decode_wr : decodeCommand 0b1000000000000011 0xFFFFFFFF = .wr 3 0xFFFFFFFF := by decide
theorem test_decode_reservedOp3 : decodeCommand 0b1111111111111111 0 = .reservedOp3 0x3FFF := by decide
theorem test_decode_reservedByte : decodeCommand 0b0000000111111010 0 = .reservedByte 0x01FA := by decide
theorem test_decode_reservedRead : decodeCommand 0b0100000010000000 0 = .reservedRead 0x0080 := by decide
theorem test_decode_reservedWrite : decodeCommand 0b1000000010000000 7 = .reservedWrite 0x0080 := by decide

/-! MID and LEN bytes (R88, R90). -/

theorem test_decode_frameMeas : decodeMid 0b00110110 = .frameMeas := by decide
theorem test_decode_frameOther : decodeMid 0b00110000 = .frameOther 0x30 := by decide
theorem test_decode_lenStd : decodeLen 0b11111110 = .lenStd 0xFE := by decide
theorem test_decode_lenExt : decodeLen 0b11111111 = .lenExt := by decide

/-! TLV records: two id bytes, a length byte, the value (R91, R160). -/

theorem test_decode_tlvPktCnt :
    decode (.record [0b00010000, 0b00100000, 0b00000001, 0x2A]) = .ok (.tlvPktCnt [0x2A]) := by decide
theorem test_decode_tlvSampleTime :
    decode (.record [0b00010000, 0b01100000, 0b00000001, 0x2A]) = .ok (.tlvSampleTime [0x2A]) := by decide
theorem test_decode_tlvUtc :
    decode (.record [0b00010000, 0b00010000, 0b00000001, 0x2A]) = .ok (.tlvUtc [0x2A]) := by decide
theorem test_decode_tlvEuler :
    decode (.record [0b00100000, 0b00110000, 0b00000001, 0x2A]) = .ok (.tlvEuler [0x2A]) := by decide
theorem test_decode_tlvQuat :
    decode (.record [0b00100000, 0b00010000, 0b00000001, 0x2A]) = .ok (.tlvQuat [0x2A]) := by decide
theorem test_decode_tlvAcc :
    decode (.record [0b01000000, 0b00100000, 0b00000001, 0x2A]) = .ok (.tlvAcc [0x2A]) := by decide
theorem test_decode_tlvFacc :
    decode (.record [0b01000000, 0b00110000, 0b00000001, 0x2A]) = .ok (.tlvFacc [0x2A]) := by decide
theorem test_decode_tlvRot :
    decode (.record [0b10000000, 0b00100000, 0b00000001, 0x2A]) = .ok (.tlvRot [0x2A]) := by decide
theorem test_decode_tlvMag :
    decode (.record [0b11000000, 0b00100000, 0b00000001, 0x2A]) = .ok (.tlvMag [0x2A]) := by decide
theorem test_decode_tlvLatLon :
    decode (.record [0b01010000, 0b01000010, 0b00000001, 0x2A]) = .ok (.tlvLatLon [0x2A]) := by decide
theorem test_decode_tlvAlt :
    decode (.record [0b01010000, 0b00100010, 0b00000001, 0x2A]) = .ok (.tlvAlt [0x2A]) := by decide
theorem test_decode_tlvVel :
    decode (.record [0b11010000, 0b00010010, 0b00000001, 0x2A]) = .ok (.tlvVel [0x2A]) := by decide
theorem test_decode_tlvStatusWord :
    decode (.record [0b11100000, 0b00100000, 0b00000001, 0x2A]) = .ok (.tlvStatusWord [0x2A]) := by decide
theorem test_decode_tlvTemp :
    decode (.record [0b00001000, 0b00010000, 0b00000001, 0x2A]) = .ok (.tlvTemp [0x2A]) := by decide
theorem test_decode_tlvBaro :
    decode (.record [0b00110000, 0b00010000, 0b00000001, 0x2A]) = .ok (.tlvBaro [0x2A]) := by decide
theorem test_decode_tlvDv :
    decode (.record [0b01000000, 0b00010000, 0b00000001, 0x2A]) = .ok (.tlvDv [0x2A]) := by decide
theorem test_decode_tlvDq :
    decode (.record [0b10000000, 0b00110000, 0b00000001, 0x2A]) = .ok (.tlvDq [0x2A]) := by decide
theorem test_decode_tlvUnknown :
    decode (.record [0b10011001, 0b10011001, 0b00000001, 0x2A]) = .ok (.tlvUnknown 0x9999 [0x2A]) := by decide
/-- A value that ends early is no record (R164). -/
theorem test_decode_record_refused : decode (.record [0x10, 0x20, 0x02, 0x00]) = .error .valueShort := by decide
/-- A table word of a TLV row, and of a command row (log 8). -/
theorem test_table_word_tlv : decodeTableWord 16 0x5042 = some (.tlvLatLon []) := by decide
theorem test_table_word_command : decodeTableWord 16 0x4000 = some (.rd 0) := by decide

/-! ### One step -/

/-- The next state, or reset's where the machine stops. -/
def nextOf : Result → State
  | .next t => t
  | .fault _ => State.reset
  | .refused _ => State.reset

/-- Whether a step completes. -/
def completes : Result → Bool
  | .next _ => true
  | .fault _ => false
  | .refused _ => false

/-- A synchronized state of `fst` that holds the packet-counter frame of 95 up to `n` bytes (R23, R42). -/
def holding (f : FrameState) (n : Nat) : State :=
  let frame : List Byte := [0xFA, 0xFF, 0x36, 0x05, 0x10, 0x20, 0x02, 0x00, 0x2A]
  { State.reset with
    fst := f, sync := true, fbuf := cellsFrom 0 (frame.take n), fidx := BitVec.ofNat 9 n
    curLen := if n < 4 then 0 else 5, acc := byteSum ((frame.take n).drop 2) }

/-- A synchronized state of `fst` with nothing held. -/
def synced (f : FrameState) : State := { State.reset with fst := f, sync := true }

/-- The state in which `is` is presented. -/
def given (s : State) (is : List Input) : State := { s with inputs := is }

/-- 95 section 2.1: `STATUS` after BYTE `0xFA` from reset. -/
theorem test_byte_first_marker : (nextOf (exec (.byte 0xFA) State.reset)).regValue 1 = 0x00010002 := by decide
/-- 95: the packet-counter frame's checksum byte `0x6A` (sections 1.2, 2.3). -/
theorem test_byte_commits_pcf : ((nextOf (exec (.byte 0x6A) (holding .cks 9))).fields.pktCnt,
      (nextOf (exec (.byte 0x6A) (holding .cks 9))).recStatus,
      (nextOf (exec (.byte 0x6A) (holding .cks 9))).lastFrame) = (0x2A, 0x101, 0x6A6A0536) := by decide
/-- 95 section 2.1. -/
theorem test_rd_unmapped :
    ((nextOf (exec (.rd 127) State.reset)).out.rdata, (nextOf (exec (.rd 127) State.reset)).lastCause) =
      (some 0, 0x8000000A) := by decide
/-- R203's example. -/
theorem test_rd_status_dec :
    (nextOf (exec (.rd 15) { State.reset with fields := { FieldRegs.zero with statusWord := 0x15E0001E } })).out.rdata =
      some 0x00000AFF := by decide
/-- R212's example. -/
theorem test_wr_irqEn : (nextOf (exec (.wr 3 0xFFFFFFFF) State.reset)).irqEn = 0x000707FF := by decide
/-- 95 section 2.1. -/
theorem test_wr_readOnly :
    ((nextOf (exec (.wr 127 0) State.reset)).events, (nextOf (exec (.wr 127 0) State.reset)).lastCause) =
      (0x400, 0x8000000A) := by decide
/-- 95 section 2.1. -/
theorem test_reservedOp3 : ((nextOf (exec (.reservedOp3 0) State.reset)).events,
      (nextOf (exec (.reservedOp3 0) State.reset)).lastCause) = (0x200, 0x80000009) := by decide
/-- 95 section 2.1. -/
theorem test_reservedByte : ((nextOf (exec (.reservedByte 0x100) State.reset)).events,
      (nextOf (exec (.reservedByte 0x100) State.reset)).lastCause) = (0x200, 0x80000009) := by decide
/-- 95 section 2.1. -/
theorem test_reservedRead : ((nextOf (exec (.reservedRead 0x80) State.reset)).events,
      (nextOf (exec (.reservedRead 0x80) State.reset)).lastCause) = (0x200, 0x80000009) := by decide
/-- 95 section 2.1. -/
theorem test_reservedWrite : ((nextOf (exec (.reservedWrite 0x80) State.reset)).events,
      (nextOf (exec (.reservedWrite 0x80) State.reset)).lastCause) = (0x200, 0x80000009) := by decide
/-- 95 section 1: the record of the packet-counter frame. -/
theorem test_frameMeas :
    ((nextOf (exec .frameMeas (holding .cks 9))).avail, (nextOf (exec .frameMeas (holding .cks 9))).events) =
      (1, 0x60000) := by decide
/-- 95 section 2.3: `FA FF 30 00 D1`. -/
theorem test_frameOther : ((nextOf (exec (.frameOther 0x30) { synced .cks with acc := 0x30 })).lastFrame,
      (nextOf (exec (.frameOther 0x30) { synced .cks with acc := 0x30 })).out.emitted) =
      (0xD1D10030, [.frameOut 0x30 0 [] 0xD1]) := by decide
/-- R117's example. -/
theorem test_lenStd :
    ((nextOf (exec (.lenStd 5) (holding .len 3))).acc, (nextOf (exec (.lenStd 5) (holding .len 3))).fst) =
      (0x3B, .pay) := by decide
/-- An empty payload goes straight to the checksum (R117). -/
theorem test_lenStd_zero : (nextOf (exec (.lenStd 0) (holding .len 3))).fst = .cks := by decide
/-- 95 trace B, step 4. -/
theorem test_lenExt :
    ((nextOf (exec .lenExt (holding .len 3))).regValue 1, (nextOf (exec .lenExt (holding .len 3))).lastCause) =
      (0x0000000D, 0x80000001) := by decide
/-! The examples of R171 to R187. -/

/-- The field registers of the decode after one record. -/
def regsAfter (i : Instr) : FieldRegs := (nextOf (exec i State.reset)).work.regs

/-- R171's example. -/
theorem test_tlvPktCnt : regsAfter (.tlvPktCnt
      [0x00, 0x2A]) =
      { FieldRegs.zero with pktCnt := 0x2A } := by decide
/-- R172's example. -/
theorem test_tlvSampleTime : regsAfter (.tlvSampleTime
      [0x00, 0x01, 0xE2, 0x40]) =
      { FieldRegs.zero with sampleTime := 0x0001E240 } := by decide
/-- R173's example. -/
theorem test_tlvUtc : regsAfter (.tlvUtc
      [0x00, 0x0F, 0x42, 0x40, 0x07, 0xE9, 0x0B, 0x0B, 0x15, 0x09, 0x00]) =
      { FieldRegs.zero with utcNs := 0x000F4240, utcYmd := 0x0B0B07E9, utcHms := 0x00000915 } := by decide
/-- R174's example. -/
theorem test_tlvEuler : regsAfter (.tlvEuler
      [0x3F, 0x80, 0x00, 0x00, 0x00, 0x00, 0x00, 0x00, 0xBF, 0x80, 0x00, 0x00]) =
      { FieldRegs.zero with euler0 := 0x3F800000, euler2 := 0xBF800000 } := by decide
/-- R175's example. -/
theorem test_tlvQuat : regsAfter (.tlvQuat
      [0x3F, 0x80, 0x00, 0x00, 0x00, 0x00, 0x00, 0x00, 0x00, 0x00, 0x00, 0x00, 0x00, 0x00, 0x00, 0x00]) =
      { FieldRegs.zero with quat0 := 0x3F800000 } := by decide
/-- R176's example. -/
theorem test_tlvAcc : regsAfter (.tlvAcc
      [0x00, 0x00, 0x00, 0x00, 0x00, 0x00, 0x00, 0x00, 0x41, 0x1C, 0xF5, 0xC3]) =
      { FieldRegs.zero with acc2 := 0x411CF5C3 } := by decide
/-- R177's example. -/
theorem test_tlvFacc : regsAfter (.tlvFacc
      [0x3C, 0x23, 0xD7, 0x0A, 0xBC, 0x23, 0xD7, 0x0A, 0x00, 0x00, 0x00, 0x00]) =
      { FieldRegs.zero with facc0 := 0x3C23D70A, facc1 := 0xBC23D70A } := by decide
/-- R178's example. -/
theorem test_tlvRot : regsAfter (.tlvRot
      [0x7F, 0xC0, 0x00, 0x00, 0xFF, 0x80, 0x00, 0x00, 0x80, 0x00, 0x00, 0x00]) =
      { FieldRegs.zero with rot0 := 0x7FC00000, rot1 := 0xFF800000, rot2 := 0x80000000 } := by decide
/-- R179's example. -/
theorem test_tlvMag : regsAfter (.tlvMag
      [0x3F, 0x00, 0x00, 0x00, 0x3E, 0x80, 0x00, 0x00, 0x3E, 0x00, 0x00, 0x00]) =
      { FieldRegs.zero with mag0 := 0x3F000000, mag1 := 0x3E800000, mag2 := 0x3E000000 } := by decide
/-- R180's example. -/
theorem test_tlvLatLon :
    regsAfter (.tlvLatLon
      [0x80, 0x00, 0x00, 0x00, 0x00, 0x34, 0x80, 0x00, 0x00, 0x00, 0xFF, 0xFE]) =
      { FieldRegs.zero with latHi := 0x34, latLo := 0x80000000, lonHi := 0xFFFFFFFE, lonLo := 0x80000000 } :=
  by decide
/-- R181's example. -/
theorem test_tlvAlt : regsAfter (.tlvAlt
      [0xC0, 0x00, 0x00, 0x00, 0xFF, 0xFF]) =
      { FieldRegs.zero with altHi := 0xFFFFFFFF, altLo := 0xC0000000 } := by decide
/-- R182's example. -/
theorem test_tlvVel : regsAfter (.tlvVel
      [0x80, 0x00, 0x00, 0x00, 0x00, 0x01, 0x00, 0x00, 0x00, 0x00, 0x00, 0x00, 0x00, 0x00, 0x00, 0x00, 0x80, 0x00]) =
      { FieldRegs.zero with vel0Hi := 1, vel0Lo := 0x80000000, vel2Hi := 0xFFFF8000 } := by decide
/-- R183's example. -/
theorem test_tlvStatusWord : regsAfter (.tlvStatusWord
      [0x15, 0xE0, 0x00, 0x1E]) =
      { FieldRegs.zero with statusWord := 0x15E0001E } := by decide
/-- R184's example. -/
theorem test_tlvTemp : regsAfter (.tlvTemp
      [0x41, 0xC8, 0x00, 0x00]) =
      { FieldRegs.zero with temp := 0x41C80000 } := by decide
/-- R185's example. -/
theorem test_tlvBaro : regsAfter (.tlvBaro
      [0x00, 0x01, 0x8A, 0x88]) =
      { FieldRegs.zero with baro := 0x00018A88 } := by decide
/-- R186's example. -/
theorem test_tlvDv : regsAfter (.tlvDv
      [0x3A, 0x83, 0x12, 0x6F, 0x00, 0x00, 0x00, 0x00, 0xBA, 0x83, 0x12, 0x6F]) =
      { FieldRegs.zero with dv0 := 0x3A83126F, dv2 := 0xBA83126F } := by decide
/-- R187's example. -/
theorem test_tlvDq : regsAfter (.tlvDq
      [0x3F, 0x80, 0x00, 0x00, 0x00, 0x00, 0x00, 0x00, 0x00, 0x00, 0x00, 0x00, 0x00, 0x00, 0x00, 0x00]) =
      { FieldRegs.zero with dq0 := 0x3F800000 } := by decide
/-- Each record sets its own bit of `AV` (R160, R161). -/
theorem test_tlv_available :
    ∀ f ∈ Field.all, (nextOf (exec (f.instr (List.replicate f.size 0)) State.reset)).work.av =
       BitVec.twoPow 17 f.number :=
  by decide
/-- 95 section 1.7. -/
theorem test_tlvUnknown : ((nextOf (exec (.tlvUnknown 0x9999 [0xAB, 0xCD]) State.reset)).work.un,
      (nextOf (exec (.tlvUnknown 0x9999 [0xAB, 0xCD]) State.reset)).work.lastunk,
      (nextOf (exec (.tlvUnknown 0x9999 [0xAB, 0xCD]) State.reset)).work.off) = (true, 0x9999, 5) := by decide
/-- 95 section 2.4: `L = 1 < S = 2`. -/
theorem test_tlv_short : (nextOf (exec (.tlvPktCnt [0x2A]) State.reset)).work.sh = true := by decide

/-! Placed words run (logs 8, 9). -/

/-- 95 section 2.4: `10 20 00` is a short record. -/
theorem test_placed_tlv_runs :
    (nextOf (step (State.reset.withFetchWord 16 0x1020))).recStatus = 0x00000109 := by decide
theorem test_placed_len_runs : (nextOf (step (State.reset.withFetchWord 8 0xFF))).fst = .xlh := by decide
/-- 95 section 1.2: `FA FF 36 00 CB`. -/
theorem test_placed_mid_runs :
    (nextOf (step (State.reset.withFetchWord 8 0x36))).lastFrame = 0xCBCB0036 := by decide
theorem test_placed_command_runs : (nextOf (step (State.reset.withFetchWord 16 0x00FA))).fst = .m1 := by decide

/-! ### Witnesses: for every statement with hypotheses, a state and operands that meet them, clause by clause -/

theorem witness_StepRunsDecodedCommand :
    (given State.reset [.command 0x00FA 0]).inputs = .command 0x00FA 0 :: [] ∧
    ∃ t, exec (decodeCommand 0x00FA 0) { given State.reset [.command 0x00FA 0] with inputs := [] } = .next t :=
  ⟨rfl, _, rfl⟩
theorem witness_StepRunsDecodedCommand_stop :
    (given { synced .pay with fidx := 258 } [.command 0 0]).inputs = .command 0 0 :: [] ∧
    exec (decodeCommand 0 0) { given { synced .pay with fidx := 258 } [.command 0 0] with inputs := [] } =
      .fault (.noSuchByte 258) := ⟨rfl, rfl⟩
theorem witness_IdleAndHardwareReset :
    State.reset.inputs = [] ∧ (given State.reset [.rst]).inputs = .rst :: [] := ⟨rfl, rfl⟩
theorem witness_ByteRunsLenAndMidRows : (holding .len 3).fst = .len ∧ (holding .cks 9).fst = .cks ∧
    (0x6A : Byte) = ckExpected (holding .cks 9).acc (holding .cks 9).cksel := by decide
theorem witness_DecodeOfEncode :
    (Instr.tlvUnknown 0x9999 [0xAB]).WellFormed ∧ (Instr.reservedByte 0x100).WellFormed ∧
    (Instr.frameOther 0x37).WellFormed ∧ (Instr.lenStd 0xFE).WellFormed := by decide
theorem witness_RecordBytesHaveOneMeaning :
    decode (.record [0x10, 0x20, 0x01, 0x2A]) = .ok (.tlvPktCnt [0x2A]) := by decide
theorem witness_ReservedWordsOnlyRaiseBadCmd :
    Instr.reservedByte 0x100 ∈
    [Instr.reservedOp3 0x100, Instr.reservedByte 0x100, Instr.reservedRead 0x100, Instr.reservedWrite 0x100] :=
  by decide
theorem witness_ReadReturnsRegister : (62 : BitVec 7).toNat ≤ 62 ∧ 63 ≤ (63 : BitVec 7).toNat := by decide
theorem witness_WriteCtrl : (2 : Word).getLsbD 0 = false ∧ (3 : Word).getLsbD 0 = true := by decide
theorem witness_AcknowledgeClearsPending :
    (0xFFFFFFFF : Word).getLsbD 0 = true ∧ (0xFFFFFFFE : Word).getLsbD 0 = false := by decide
theorem witness_WriteReadOnlyRaisesBadReg :
    (1 : BitVec 7).toNat = 1 ∧ (11 : BitVec 7).toNat = 11 ∧ 13 ≤ (13 : BitVec 7).toNat := by decide
theorem witness_ReadDoesNotDisturbTheStream :
    (62 : BitVec 7).toNat ≤ 62 ∧ ∃ t, exec (.rd 62) State.reset = .next t := ⟨by decide, _, rfl⟩
theorem witness_BytesInFirstMarkerState : State.reset.fst = .m0 ∧ (0xFB : Byte) ≠ 0xFA ∧ State.reset.sync = false ∧
    (synced .m0).fst = .m0 ∧ (synced .m0).sync = true := by decide
theorem witness_BytesInSecondMarkerState :
    { holding .m1 1 with sync := false }.fst = .m1 ∧ { holding .m1 1 with sync := false }.sync = false ∧
    (holding .m1 1).fst = .m1 ∧ (holding .m1 1).sync = true ∧ (0xFA : Byte) ≠ 0xFF := by decide
theorem witness_StandardLength : (0xFE : Byte) ≠ 0xFF ∧ (0 : Byte) ≠ 0xFF ∧ (holding .len 3).fst = .len := by decide
theorem witness_ExtendedLengthDetected : (holding .len 3).fst = .len := by decide
theorem witness_MessageIdAndPayloadBytes :
    (holding .mid 2).fst = .mid ∧ { holding .pay 5 with fidx := 257 }.fst = .pay ∧
    { holding .pay 5 with fidx := 257 }.fidx.toNat < 258 := by decide
theorem witness_ExtendedLengthStates :
    (synced .xlh).fst = .xlh ∧ (synced .xll).fst = .xll ∧ (synced .xsk).fst = .xsk := by decide
theorem witness_ByteCompletesInsideFbuf :
    { holding .pay 5 with fidx := 257 }.fst = .pay ∧ { holding .pay 5 with fidx := 257 }.fidx.toNat < 258 ∧
    { synced .cks with curLen := 254 }.fst = .cks ∧ { synced .cks with curLen := 254 }.curLen ≠ 255 := by decide
theorem witness_ByteCompletesInsideFbuf_mismatch :
    { synced .cks with curLen := 255 }.fst = .cks ∧
    (0 : Byte) ≠ ckExpected { synced .cks with curLen := 255 }.acc { synced .cks with curLen := 255 }.cksel :=
  by decide
theorem witness_ByteCompletesInsideFbuf_stop :
    { synced .pay with fidx := 258 }.fst = .pay ∧ 258 ≤ { synced .pay with fidx := 258 }.fidx.toNat ∧
    { synced .cks with curLen := 255 }.fst = .cks ∧ { synced .cks with curLen := 255 }.curLen = 255 ∧
    (1 : Byte) = ckExpected { synced .cks with curLen := 255 }.acc { synced .cks with curLen := 255 }.cksel :=
  by decide
theorem witness_ChecksumMismatch :
    (holding .cks 9).fst = .cks ∧ (0x6B : Byte) ≠ ckExpected (holding .cks 9).acc (holding .cks 9).cksel :=
  by decide
theorem witness_OtherFrameIsEmittedNotParsed :
    (0x37 : Byte) ≠ 0x36 ∧ { synced .cks with curLen := 254 }.curLen ≠ 255 := by decide
theorem witness_MeasurementFrameCommitsRecord : (holding .cks 9).curLen ≠ 255 := by decide
/-- A state between two steps that meets the invariant, with a whole frame held but for its checksum byte. -/
theorem holding_cks_inv : (holding .cks 9).Inv where
  memory := by decide
  held := by decide
  position := (by decide : (holding .cks 9).fidx.toNat = 4 + (holding .cks 9).curLen.toNat ∧
    (holding .cks 9).curLen.toNat ≤ Config.maxPayload)
  skip := (rfl : (holding .cks 9).skipRem = 0)
  synced := (rfl : (holding .cks 9).sync = true)
  header := by unfold State.HeaderOk; decide
  accSum := by decide
  cause := Or.inl rfl
  reserved := by unfold State.ReservedOk; decide
  localWork := rfl
  irqOut := by decide

theorem witness_CommitChecksumIsOfTheWholeFrame :
    (holding .cks 9).Inv ∧ (holding .cks 9).fst = .cks := ⟨holding_cks_inv, rfl⟩
/-- 95 section 1.2: GoToConfig's frame, under each coverage. -/
theorem witness_SingleBitFlipIsDetected :
    3 ≤ [0xFA, 0xFF, 0x30, 0x00, (0xD1 : Byte)].length ∧ 1 ≤ 1 ∧ 4 < [0xFA, 0xFF, 0x30, 0x00, (0xD1 : Byte)].length ∧
    7 < 8 ∧ ckValidate [0xFA, 0xFF, 0x30, 0x00, 0xD1] false = true ∧
    ckValidate [0xFA, 0xFF, 0x30, 0x00, 0xD0] true = true := by decide
theorem witness_ShortRecordIsSkipped :
    ∀ f ∈ Field.all, (List.replicate (f.size - 1) (0 : Byte)).length < f.size := by decide
theorem witness_LongAndRepeatedRecords :
    ∀ f ∈ Field.all, f.size ≤ (List.replicate f.size (0 : Byte)).length := by decide
/-- 95 section 2.4: a short repeat and records of other ids after the good one. -/
theorem witness_LongAndRepeatedRecords_between : Field.size .pktCnt ≤ [(0 : Byte), 5].length ∧
    ∀ r ∈ [((0x1020 : Half), [(0x2A : Byte)]), (0x1060, [0, 0, 0, 3]), (0x9999, [])],
      Field.ofId r.1 = some .pktCnt → r.2.length < Field.size .pktCnt := by decide
theorem witness_DecodeIsRecordByRecord :
    ∀ r ∈ [((0x1020 : Half), [(0 : Byte), 42]), (0x9999, List.replicate 255 0)], r.2.length ≤ 255 := by
  intro r hr
  rcases List.mem_cons.1 hr with rfl | hr
  · decide
  · rw [List.mem_singleton.1 hr]; exact test_wf_value_longest
theorem witness_TruncationKeepsEarlierFields :
    (∀ r ∈ [((0x1020 : Half), [(0 : Byte), 42])], r.2.length ≤ 255) ∧ [(0x20 : Byte)].length = 1 ∧
    [(0x20 : Byte), 0x10].length = 2 ∧ [(0x3F : Byte)].length < (2 : Byte).toNat := by decide
theorem witness_DecodeCountsAtMost84 : (List.replicate 254 (0 : Byte)).length ≤ 254 := List.length_replicate.le
theorem witness_EachCategoryHasOneRawValue : (Config.CategoryMap.mk (0 : BitVec 2) 1 3).wf := by decide
theorem witness_EventsAreStickyAndLowestCodeWins :
    (∃ x, Instr.reservedByte 0x100 = .reservedByte x) ∧ (∃ t, exec (.byte 0) State.reset = .next t) ∧
    ∃ t, exec (.rd 63) State.reset = .next t := ⟨⟨_, rfl⟩, ⟨_, rfl⟩, _, rfl⟩
theorem witness_IrqIsTheLevel :
    ∃ t, exec (decodeCommand 0x8003 8) { State.reset with events := 8 } = .next t := ⟨_, rfl⟩
theorem witness_CountersCountOccurrences : ∃ t, exec (.byte 0) (holding .m1 1) = .next t := ⟨_, rfl⟩
theorem witness_OnlyTheseClearSync_byte : (synced .m0).sync = true ∧
    ∃ t, step (given (synced .m0) [.command 0x00FB 0]) = .next t ∧ t.sync = false := ⟨rfl, _, rfl, rfl⟩
theorem witness_OnlyTheseClearSync_reset : (synced .mid).sync = true ∧
    ∃ t, step (given (synced .mid) [.rst]) = .next t ∧ t.sync = false := ⟨rfl, _, rfl, rfl⟩
theorem witness_OnlyTheseClearSync_softReset : (synced .mid).sync = true ∧
    ∃ t, step (given (synced .mid) [.command 0x8000 1]) = .next t ∧ t.sync = false := ⟨rfl, _, rfl, rfl⟩
theorem witness_ByteFrame : (∃ t, exec (.byte 0x10) (holding .pay 4) = .next t) ∧
    ¬((holding .pay 4).fst = .cks ∧ (0x10 : Byte) = ckExpected (holding .pay 4).acc (holding .pay 4).cksel ∧
      (holding .pay 4).byteAt 2 = 0x36) := ⟨⟨_, rfl⟩, by decide⟩
theorem witness_HostAccessLeavesTheStream : (∀ b, decodeCommand 0x8000 2 ≠ .byte b) ∧
    ¬(decodeCommand 0x8000 2 = .wr 0 2 ∧ (2 : Word).getLsbD 0 = true) ∧
    ∃ t, exec (decodeCommand 0x8000 2) (holding .pay 5) = .next t := ⟨by simp [decodeCommand], by decide, _, rfl⟩
theorem witness_OutputsAreImmutable : ∃ t, step (given State.reset [.command 0 0]) = .next t := ⟨_, rfl⟩
theorem witness_SoftResetIsHardResetButConfiguration : (3 : Word).getLsbD 0 = true := by decide
theorem witness_EveryStepKeepsInvariant :
    (holding .cks 9).Inv ∧ ∃ t, step (holding .cks 9) = .next t := ⟨holding_cks_inv, _, rfl⟩
/-- The same state with a checksum byte presented: the commit. -/
theorem holding_cks_given_inv : (given (holding .cks 9) [.command 0x006A 0]).Inv :=
  let h := holding_cks_inv
  ⟨h.memory, h.held, h.position, h.skip, h.synced, h.header, h.accSum, h.cause, h.reserved, h.localWork, h.irqOut⟩

theorem witness_EveryStepKeepsInvariant_commit : (given (holding .cks 9) [.command 0x006A 0]).Inv ∧
    completes (step (given (holding .cks 9) [.command 0x006A 0])) = true := ⟨holding_cks_given_inv, by decide⟩
theorem witness_AbsentFieldsStayZero :
    State.reset.AbsentZero ∧ ∃ t, step (given State.reset [.rst]) = .next t :=
  ⟨fun f _ => by cases f <;> decide, _, rfl⟩
theorem witness_NoStepStops : (given (holding .cks 9) [.command 0x006A 0]).Inv := holding_cks_given_inv
theorem witness_ChunkingDoesNotMatter : (holding .cks 9).inputs = [] := rfl
/-- Garbage that ends in a first marker byte. -/
theorem witness_ResyncAfterGarbage :
    NoMarker [0x00, 0xFF, 0xFA] ∧ [(0x42 : Byte)].length ≤ 254 := ⟨by unfold NoMarker; decide, by decide⟩
/-- 95 trace B. -/
theorem witness_ExtendedFrameIsSkipped :
    (synced .xlh).fst = .xlh ∧ [(0xAA : Byte), 0xBB].length = (0 : Byte).toNat * 256 + (1 : Byte).toNat + 1 :=
  by decide
theorem witness_PlacedInstructionRunsNext :
    (∃ t, exec (decodeCommand 0x00FA 0) State.reset = .next t) ∧ (List.replicate 251 (0 : Byte)).length ≤ 251 :=
  ⟨⟨_, rfl⟩, List.length_replicate.le⟩

end Sys2Proof.Tests
end

section
/-! SUPPORT. Scope (00_scope.md): what one step does with the presented command, and what it leaves of the
observation of the run. -/

namespace Sys2Proof.Machine

/-! ### The observation of the run is no operation's to change (R72)

Only `observe` writes `trace`, so each operation under a command keeps it. -/

/-- A step around an effect that keeps the observation keeps it. -/
theorem runStep_keeps_trace {f : State → Result} (hf : ∀ {u v : State}, f u = .next v → v.trace = u.trace)
    {s t : State} (h : runStep f s = .next t) : t.trace = s.trace := by
  obtain ⟨u, hu, rfl⟩ := runStep_next_iff.mp h
  have hkept : u.trace = s.beginStep.trace := hf hu
  simpa using hkept

/-- A step around a total effect that keeps the observation keeps it. -/
theorem runStep_total_keeps_trace {g : State → State} (hg : ∀ u, (g u).trace = u.trace) {s t : State}
    (h : runStep (fun u => .next (g u)) s = .next t) : t.trace = s.trace := by
  refine runStep_keeps_trace (fun {u v} huv => ?_) h
  injection huv with huv
  rw [← huv, hg u]

namespace State

@[simp] theorem loseSync_trace (s : State) : s.loseSync.trace = s.trace := by
  rw [loseSync_eq]

@[simp] theorem firstMarker_trace (s : State) : s.firstMarker.trace = s.trace := rfl

@[simp] theorem noMarker_trace (s : State) : s.noMarker.trace = s.trace := by
  simp [noMarker]

@[simp] theorem secondMarker_trace (s : State) : s.secondMarker.trace = s.trace := by
  unfold secondMarker
  dsimp only
  split <;> rfl

@[simp] theorem brokenMarker_trace (b : Byte) (s : State) : (s.brokenMarker b).trace = s.trace := by
  unfold brokenMarker
  dsimp only
  split <;> simp

@[simp] theorem extSkip_trace (s : State) : s.extSkip.trace = s.trace := by
  unfold extSkip
  dsimp only
  split <;> rfl

@[simp] theorem rejectFrame_trace (mid ck : Byte) (s : State) : (s.rejectFrame mid ck).trace = s.trace := rfl

theorem acceptFrame_keeps_trace {mid ck : Byte} {m : Bool} {s t : State}
    (h : s.acceptFrame mid ck m = .next t) : t.trace = s.trace := by
  obtain ⟨-, rfl⟩ := acceptFrame_next_iff.mp h
  cases m
  · rfl
  · exact recordCommit_trace _ _

theorem commit_keeps_trace {ck : Byte} {s t : State} (h : s.commit ck = .next t) : t.trace = s.trace := by
  obtain ⟨-, rfl⟩ | ⟨-, haccept⟩ := commit_next h
  · rfl
  · exact acceptFrame_keeps_trace haccept

theorem payloadByte_keeps_trace {b : Byte} {s t : State} (h : s.payloadByte b = .next t) : t.trace = s.trace := by
  obtain ⟨-, rfl⟩ := payloadByte_next h
  rfl

/-- No state rule of the synchronizer touches the observation (R110). -/
theorem takeByte_keeps_trace {b : Byte} {s t : State} (h : s.takeByte b = .next t) : t.trace = s.trace := by
  cases hfst : s.fst <;> simp only [takeByte, hfst] at h
  case pay => exact payloadByte_keeps_trace h
  case cks => exact commit_keeps_trace h
  all_goals injection h with h; subst h
  case m0 => split <;> simp
  case m1 => split <;> simp
  case mid => rfl
  case len => split <;> rfl
  case xlh => rfl
  case xll => rfl
  case xsk => exact extSkip_trace s

@[simp] theorem readReg_trace (i : Nat) (s : State) : (s.readReg i).trace = s.trace := by
  unfold readReg
  split <;> rfl

/-- Not even a soft reset touches the observation (R214). -/
@[simp] theorem writeReg_trace (i : Nat) (v : Word) (s : State) : (s.writeReg i v).trace = s.trace := by
  unfold writeReg
  split
  case h_1 => split <;> rfl
  case h_11 => split <;> rfl
  all_goals rfl

end State

/-- No host command touches the observation: its outputs join it when the step is finished (R13, R72). -/
theorem exec_decodeCommand_keeps_trace {cmd : Half} {wdata : Word} {s t : State}
    (h : exec (decodeCommand cmd wdata) s = .next t) : t.trace = s.trace := by
  have reserved {u : State} (hu : runStep (fun v => .next v.badCommand) u = .next t) : t.trace = u.trace :=
    runStep_total_keeps_trace (g := State.badCommand) (fun _ => rfl) hu
  obtain ⟨d, hd⟩ | ⟨i, hd⟩ | ⟨i, hd⟩ | ⟨x, hd⟩ | ⟨x, hd⟩ | ⟨x, hd⟩ | ⟨x, hd⟩ := decodeCommand_cases cmd wdata <;>
    rw [hd] at h
  · exact runStep_keeps_trace State.takeByte_keeps_trace h
  · exact runStep_total_keeps_trace (State.readReg_trace i.toNat) h
  · exact runStep_total_keeps_trace (State.writeReg_trace i.toNat wdata) h
  · exact reserved h
  · exact reserved h
  · exact reserved h
  · exact reserved h

/-- A step leaves the observation as it was, or adds its own outputs at the end (R13, R72). -/
theorem step_trace_cases {s t : State} (h : step s = .next t) :
    t.trace = s.trace ∨ t.trace = s.trace ++ [t.out] := by
  obtain ⟨-, rfl⟩ | ⟨rest, -, rfl⟩ | ⟨cmd, wdata, rest, u, -, hu, rfl⟩ := step_next_cases h
  · exact .inl rfl
  · exact .inl rfl
  · have hkept : u.trace = { s with inputs := rest }.trace := exec_decodeCommand_keeps_trace hu
    exact .inr (congrArg (· ++ [u.out]) hkept)

end Sys2Proof.Machine

open Sys2Proof Sys2Proof.Machine

/-- Settles O1: `step` hands a presented command to `observe` after `exec`. -/
theorem stepRunsDecodedCommand : Obligations.StepRunsDecodedCommand := by
  intro s cmd wdata rest hinputs
  rw [step_command hinputs]
  constructor
  · intro t hexec
    rw [hexec]
    rfl
  · intro r hexec
    rw [hexec]
    rfl

/-- Settles O49: the observation grows by the step's own outputs at most, and what a port holds is a fold over it. -/
theorem outputsAreImmutable : Obligations.OutputsAreImmutable := by
  intro s t h
  obtain hkept | hgrown := step_trace_cases h
  · exact .inl ⟨hkept, fun _ port => State.portAfter_congr port hkept⟩
  · refine .inr ⟨hgrown, fun _ port => ?_⟩
    calc t.portAfter port
        = State.portAfter port { s with trace := s.trace ++ [t.out] } := State.portAfter_congr port hgrown
      _ = t.out.emitted.foldl port.accept (s.portAfter port) := State.portAfter_append port s t.out

end

section
/-! SUPPORT. What one host command can do, as relations between the state before and the state after: the moves of a
BYTE, and what a host access leaves alone. Every statement on the state (10_state.md) is derived from these. -/

namespace Sys2Proof.Machine

/-! ### Two state rules in closed form -/

/-- What completing the marker does; only a hunt counts and reports it (R113). -/
theorem State.secondMarker_eq (s : State) :
    s.secondMarker = { s with
      fbuf := s.fbuf.write 1 Config.marker1, fidx := 2, acc := 0, fst := .mid, sync := true
      resyncCnt := if s.sync then s.resyncCnt else s.resyncCnt + 1
      events := if s.sync then s.events else s.events ||| EventCode.syncAcq.bit
      raised := if s.sync then s.raised else .syncAcq :: s.raised } := by
  cases h : s.sync <;> simp [secondMarker, storeByte, raise, h]

/-- What a skipped byte does; the last one ends the extended frame (R123). -/
theorem State.extSkip_eq (s : State) :
    s.extSkip = { s with
      skipRem := s.skipRem - 1, fst := if s.skipRem - 1 = 0 then .m0 else s.fst } := by
  by_cases h : s.skipRem - 1 = 0 <;> simp only [extSkip, h, if_true, if_false]

/-! ### The moves of a BYTE (R110) -/

/-- A valid commit up to the record: the frame noted, counted, reported and emitted (R144, R145). -/
def State.frameAccepted (mid ck : Byte) (s : State) : State :=
  State.emit (.frameOut mid s.curLen s.payload ck)
    (State.raise .frameOk { s.noteFrame mid ck with frameCnt := s.frameCnt + 1 })

/-- Everything a BYTE can do to the state, one constructor per branch of the state rules R111 to R123 and R144. -/
inductive ByteMove (b : Byte) (s : State) : State → Prop
  | firstMarker (hfst : s.fst = .m0) (hb : b = Config.marker0) : ByteMove b s s.firstMarker
  | noMarker (hfst : s.fst = .m0) (hb : b ≠ Config.marker0) : ByteMove b s s.noMarker
  | secondMarker (hfst : s.fst = .m1) (hb : b = Config.marker1) : ByteMove b s s.secondMarker
  | brokenMarker (hfst : s.fst = .m1) (hb : b ≠ Config.marker1) : ByteMove b s (s.brokenMarker b)
  | midByte (hfst : s.fst = .mid) : ByteMove b s (s.midByte b)
  | extendedLen (hfst : s.fst = .len) (hb : b = Config.extLen) : ByteMove b s s.extendedLen
  | standardLen (hfst : s.fst = .len) (hb : b ≠ Config.extLen) : ByteMove b s (s.standardLen b)
  | payloadByte (hfst : s.fst = .pay) (hroom : s.fidx.toNat < Config.fbufSize) :
      ByteMove b s { s with
        fbuf := s.fbuf.write s.fidx.toNat b
        fidx := s.fidx + 1
        acc := s.acc + b
        fst := if s.fidx + 1 = 4 + s.curLen.setWidth 9 then .cks else s.fst }
  | rejectFrame (hfst : s.fst = .cks) (hb : b ≠ ckExpected s.acc s.cksel) :
      ByteMove b s (s.rejectFrame (s.byteAt 2) b)
  | acceptOther (hfst : s.fst = .cks) (hb : b = ckExpected s.acc s.cksel) (hfits : s.PayloadFits)
      (hmid : s.byteAt 2 ≠ Config.measMid) : ByteMove b s (s.frameAccepted (s.byteAt 2) b).closeFrame
  | acceptMeasurement (hfst : s.fst = .cks) (hb : b = ckExpected s.acc s.cksel) (hfits : s.PayloadFits)
      (hmid : s.byteAt 2 = Config.measMid) :
      ByteMove b s ((s.frameAccepted (s.byteAt 2) b).recordCommit s.payload).closeFrame
  | extHigh (hfst : s.fst = .xlh) : ByteMove b s (s.extHigh b)
  | extLow (hfst : s.fst = .xll) : ByteMove b s (s.extLow b)
  | extSkip (hfst : s.fst = .xsk) : ByteMove b s s.extSkip

/-- The moves a commit makes. -/
theorem State.commit_move {b : Byte} {s t : State} (hfst : s.fst = .cks) (h : s.commit b = .next t) :
    ByteMove b s t := by
  obtain ⟨hb, rfl⟩ | ⟨hb, haccept⟩ := State.commit_next h
  · exact .rejectFrame hfst hb
  · obtain ⟨hfits, rfl⟩ := State.acceptFrame_next_iff.mp haccept
    cases hmid : decide (s.byteAt 2 = Config.measMid)
    case false => exact .acceptOther hfst hb hfits (of_decide_eq_false hmid)
    case true => exact .acceptMeasurement hfst hb hfits (of_decide_eq_true hmid)

/-- A BYTE that completes made one of the moves. -/
theorem State.takeByte_move {b : Byte} {s t : State} (h : s.takeByte b = .next t) : ByteMove b s t := by
  cases hfst : s.fst <;> simp only [State.takeByte, hfst] at h
  case pay =>
    obtain ⟨hroom, rfl⟩ := State.payloadByte_next h
    exact .payloadByte hfst hroom
  case cks => exact State.commit_move hfst h
  all_goals injection h with h; subst h
  case m0 =>
    split
    next hb => exact .firstMarker hfst hb
    next hb => exact .noMarker hfst hb
  case m1 =>
    split
    next hb => exact .secondMarker hfst hb
    next hb => exact .brokenMarker hfst hb
  case mid => exact .midByte hfst
  case len =>
    split
    next hb => exact .extendedLen hfst hb
    next hb => exact .standardLen hfst hb
  case xlh => exact .extHigh hfst
  case xll => exact .extLow hfst
  case xsk => exact .extSkip hfst

/-! ### What a host access leaves alone (R20, R21, R60) -/

/-- The later state has the earlier one's stream, frame in progress, record fields and emitted events. -/
structure StreamKept (s t : State) : Prop where
  fst : t.fst = s.fst
  sync : t.sync = s.sync
  fbuf : t.fbuf = s.fbuf
  fidx : t.fidx = s.fidx
  curLen : t.curLen = s.curLen
  acc : t.acc = s.acc
  skipRem : t.skipRem = s.skipRem
  lastFrame : t.lastFrame = s.lastFrame
  recSeq : t.recSeq = s.recSeq
  avail : t.avail = s.avail
  fields : t.fields = s.fields
  work : t.work = s.work
  draws : t.draws = s.draws
  emitted : t.out.emitted = s.out.emitted

theorem State.readReg_streamKept (i : Nat) (s : State) : StreamKept s (s.readReg i) := by
  unfold State.readReg
  split <;> constructor <;> rfl

theorem State.badCommand_streamKept (s : State) : StreamKept s s.badCommand := by
  constructor <;> rfl

/-- What a write of a register does: a soft reset (R214), or it leaves the stream alone. -/
theorem State.writeReg_cases (i : Nat) (v : Word) (s : State) :
    (i = 0 ∧ v.getLsbD 0 = true ∧ s.writeReg i v = State.softReset { s with cksel := v.getLsbD 1 }) ∨
      StreamKept s (s.writeReg i v) := by
  unfold State.writeReg
  split
  case h_1 =>
    split
    next hv => exact .inl ⟨rfl, hv, rfl⟩
    next => right; constructor <;> rfl
  case h_11 => right; split <;> constructor <;> rfl
  all_goals right; constructor <;> rfl

/-! ### One host command -/

/-- Everything a host command does between the beginning and the end of its step (R12, R85). -/
theorem exec_decodeCommand_next {cmd : Half} {wdata : Word} {s t : State}
    (h : exec (decodeCommand cmd wdata) s = .next t) : ∃ u, t = u.endStep ∧
      ((∃ b, decodeCommand cmd wdata = .byte b ∧ ByteMove b s.beginStep u) ∨
      (∃ i, decodeCommand cmd wdata = .rd i ∧ u = s.beginStep.readReg i.toNat) ∨
      (∃ i, decodeCommand cmd wdata = .wr i wdata ∧ u = s.beginStep.writeReg i.toNat wdata) ∨
      u = s.beginStep.badCommand) := by
  have reserved (hres : runStep (fun v => .next v.badCommand) s = .next t) : t = s.beginStep.badCommand.endStep := by
    injection hres with hres
    exact hres.symm
  obtain ⟨b, hd⟩ | ⟨i, hd⟩ | ⟨i, hd⟩ | ⟨x, hd⟩ | ⟨x, hd⟩ | ⟨x, hd⟩ | ⟨x, hd⟩ := decodeCommand_cases cmd wdata <;>
    rw [hd] at h
  · obtain ⟨u, hu, rfl⟩ := runStep_next_iff.mp h
    exact ⟨u, rfl, .inl ⟨b, hd, State.takeByte_move hu⟩⟩
  · injection h with h
    exact ⟨_, h.symm, .inr (.inl ⟨i, hd, rfl⟩)⟩
  · injection h with h
    exact ⟨_, h.symm, .inr (.inr (.inl ⟨i, hd, rfl⟩))⟩
  all_goals exact ⟨_, reserved h, .inr (.inr (.inr rfl))⟩

end Sys2Proof.Machine

open Sys2Proof Sys2Proof.Machine

/-- Settles O48: a READ, a reserved word and a WRITE that is no soft reset keep the stream (`StreamKept`). -/
theorem hostAccessLeavesTheStream : Obligations.HostAccessLeavesTheStream := by
  intro cmd wdata s t hbyte hreset h
  obtain ⟨u, rfl, hu⟩ := exec_decodeCommand_next h
  have kept : StreamKept s.beginStep u := by
    obtain ⟨b, hd, -⟩ | ⟨i, -, rfl⟩ | ⟨i, hd, rfl⟩ | rfl := hu
    · exact absurd hd (hbyte b)
    · exact State.readReg_streamKept i.toNat _
    · obtain ⟨hi, hv, -⟩ | kept := State.writeReg_cases i.toNat wdata s.beginStep
      · obtain rfl : i = 0 := BitVec.eq_of_toNat_eq hi
        exact absurd ⟨hd, hv⟩ hreset
      · exact kept
    · exact State.badCommand_streamKept _
  exact ⟨kept.fst, kept.sync, kept.fbuf, kept.fidx, kept.curLen, kept.acc, kept.skipRem, kept.lastFrame, kept.recSeq,
    kept.avail, kept.fields, kept.emitted⟩

end

section
/-! SUPPORT. The counters (10_state.md R29 to R34, R37): each grows with the events it counts. -/
namespace Sys2Proof.Machine

/-- Each counter of `t` is that of `s` plus the number of its events that stand in `t.raised`. -/
def CountsRaised (s t : State) : Prop :=
  t.discardCnt = s.discardCnt + BitVec.ofNat 32 (t.raised.count .discard) ∧
  t.resyncCnt = s.resyncCnt + BitVec.ofNat 32 (t.raised.count .syncAcq) ∧
  t.synclossCnt = s.synclossCnt + BitVec.ofNat 32 (t.raised.count .syncLost) ∧
  t.frameCnt = s.frameCnt + BitVec.ofNat 32 (t.raised.count .frameOk) ∧
  t.ckerrCnt = s.ckerrCnt + BitVec.ofNat 32 (t.raised.count .ckerr) ∧
  t.extlenCnt = s.extlenCnt + BitVec.ofNat 32 (t.raised.count .extlen) ∧
  t.recSeq = s.recSeq + BitVec.ofNat 32 (t.raised.count .recDone)

/-- Of the counted events a record commit raises `REC_DONE` alone, and that once. -/
theorem count_commitRaises (pending : Bool) (w : TlvWork) {e : EventCode}
    (he : e ∈ [.discard, .syncAcq, .syncLost, .frameOk, .ckerr, .extlen, .recDone]) :
    (commitRaises pending w).count e = if e = .recDone then 1 else 0 := by
  simp only [commitRaises, List.count_append, apply_ite (List.count e)]
  fin_cases he <;> simp

namespace CountsRaised

theorem beginStep (s : State) : CountsRaised s s.beginStep := by
  simp [CountsRaised]

variable {s t : State}

theorem discard (h : CountsRaised s t) : CountsRaised s t.discard := by
  simpa [CountsRaised, BitVec.ofNat_add, ← BitVec.add_assoc] using h

theorem loseSync (h : CountsRaised s t) : CountsRaised s t.loseSync := by
  unfold State.loseSync
  split
  · simpa [CountsRaised, BitVec.ofNat_add, ← BitVec.add_assoc] using h
  · exact h

theorem secondMarker (h : CountsRaised s t) : CountsRaised s t.secondMarker := by
  unfold State.secondMarker
  dsimp only
  split
  · exact h
  · simpa [CountsRaised, BitVec.ofNat_add, ← BitVec.add_assoc] using h

theorem extendedLen (h : CountsRaised s t) : CountsRaised s t.extendedLen := by
  simpa [CountsRaised, State.extendedLen, BitVec.ofNat_add, ← BitVec.add_assoc] using h

theorem rejectFrame (mid ck : Byte) (h : CountsRaised s t) : CountsRaised s (t.rejectFrame mid ck) := by
  simpa [CountsRaised, State.rejectFrame, State.closeFrame, State.noteFrame, BitVec.ofNat_add, ← BitVec.add_assoc]
    using h

theorem frameAccepted (mid ck : Byte) (h : CountsRaised s t) : CountsRaised s (t.frameAccepted mid ck) := by
  simpa [CountsRaised, State.frameAccepted, State.noteFrame, BitVec.ofNat_add, ← BitVec.add_assoc] using h

theorem recordCommit (p : List Byte) (h : CountsRaised s t) : CountsRaised s (t.recordCommit p) := by
  simpa [CountsRaised, count_commitRaises, BitVec.ofNat_add, ← BitVec.add_assoc, Nat.add_comm 1] using h

theorem brokenMarker (b : Byte) (h : CountsRaised s t) : CountsRaised s (t.brokenMarker b) := by
  unfold State.brokenMarker
  dsimp only
  split
  · exact h.loseSync.discard
  · exact h.loseSync.discard.discard

theorem extSkip (h : CountsRaised s t) : CountsRaised s t.extSkip := by
  rw [State.extSkip_eq]
  exact h

/-- A BYTE counts every event it raises. -/
theorem byteMove {b : Byte} {u : State} (h : CountsRaised s t) (hmove : ByteMove b t u) : CountsRaised s u := by
  cases hmove with
  | firstMarker => exact h
  | noMarker => exact h.loseSync.discard
  | secondMarker => exact h.secondMarker
  | brokenMarker => exact h.brokenMarker b
  | midByte => exact h
  | extendedLen => exact h.extendedLen
  | standardLen => exact h
  | payloadByte => exact h
  | rejectFrame => exact h.rejectFrame _ b
  | acceptOther => exact h.frameAccepted _ b
  | acceptMeasurement => exact (h.frameAccepted _ b).recordCommit _
  | extHigh => exact h
  | extLow => exact h
  | extSkip => exact h.extSkip

end CountsRaised
end Sys2Proof.Machine

open Sys2Proof Sys2Proof.Machine

/-- Settles O45: `CountsRaised` holds at the beginning of the step and every move of a BYTE keeps it. -/
theorem countersCountOccurrences : Obligations.CountersCountOccurrences := by
  intro b s t h
  obtain ⟨u, hu, rfl⟩ := runStep_next_iff.mp h
  have counted : CountsRaised s u := (CountsRaised.beginStep s).byteMove (State.takeByte_move hu)
  exact counted

end

section
/-! SUPPORT. What a commit leaves in the record bank (42_tlv_parser.md R161, R162). -/

namespace Sys2Proof

/-- The field number is the field's place in R160's list. -/
theorem Field.all_getElem?_number (f : Field) : Field.all[f.number]? = some f := by
  cases f <;> rfl

theorem Field.number_injective : Function.Injective Field.number := fun f g h =>
  Option.some.inj (by rw [← f.all_getElem?_number, h, g.all_getElem?_number])

theorem Field.number_lt (f : Field) : f.number < 17 :=
  (List.getElem?_eq_some_iff.1 f.all_getElem?_number).1

namespace Machine

/-! ### The decode -/

/-- What every extraction keeps, with its bit of the availability mask, a whole pass keeps. -/
theorem TlvWork.pass_keeps_bank {P : FieldRegs → BitVec 17 → Prop}
    (hextract : ∀ f v r av, P r av → P (extract v r f) (av ||| 1#17 <<< f.number))
    (id : Half) (v : List Byte) {w : TlvWork} (hw : P w.regs w.av) : P (w.pass id v).regs (w.pass id v).av := by
  unfold TlvWork.pass
  split
  next f _ =>
    obtain hshort | hfits := Nat.lt_or_ge v.length f.size
    · rw [TlvWork.known_of_short hshort]
      exact hw
    · rw [TlvWork.known_of_fits hfits]
      exact hextract f v _ _ hw
  next => exact hw

/-- What holds of the cleared field registers and mask, and is kept by every extraction with its bit of the mask,
holds of the result of a decode (R161). -/
theorem tlvDecode_bank_induction {P : FieldRegs → BitVec 17 → Prop} (hzero : P FieldRegs.zero 0)
    (hextract : ∀ f v r av, P r av → P (extract v r f) (av ||| 1#17 <<< f.number)) (p : List Byte) :
    P (tlvDecode p).regs (tlvDecode p).av := by
  have hloop (fuel : Nat) : ∀ w : TlvWork, P w.regs w.av → P (tlvLoop fuel p w).regs (tlvLoop fuel p w).av := by
    induction fuel with
    | zero => exact fun _ hw => hw
    | succ fuel ih =>
      intro w hw
      unfold tlvLoop
      split
      case h_4 id v _ => exact ih _ (TlvWork.pass_keeps_bank hextract id v hw)
      all_goals exact hw
  exact hloop _ TlvWork.init hzero

/-! ### Absent fields hold 0 (R41) -/

/-- Extractions of different fields write different registers. -/
theorem extract_comm {f g : Field} (hne : f ≠ g) (v v' : List Byte) (r : FieldRegs) :
    extract v (extract v' r g) f = extract v' (extract v r f) g := by
  cases f <;> cases g <;> (try contradiction) <;> rfl

/-- The registers of a field without its bit in the mask hold 0. -/
def AbsentZeroIn (r : FieldRegs) (av : BitVec 17) : Prop :=
  ∀ f : Field, av.getLsbD f.number = false → extract [] r f = r

theorem absentZeroIn_zero : AbsentZeroIn FieldRegs.zero 0 := by
  intro f _
  cases f <;> rfl

/-- An extraction sets the bit of the one field whose registers it writes. -/
theorem AbsentZeroIn.extract {r : FieldRegs} {av : BitVec 17} (h : AbsentZeroIn r av) (g : Field) (v : List Byte) :
    AbsentZeroIn (extract v r g) (av ||| 1#17 <<< g.number) := by
  intro f hf
  rw [BitVec.getLsbD_or, Bool.or_eq_false_iff] at hf
  obtain ⟨hav, hbit⟩ := hf
  have hne : f ≠ g := by
    rintro rfl
    simp [f.number_lt] at hbit
  rw [extract_comm hne, h f hav]

theorem tlvDecode_absentZeroIn (p : List Byte) : AbsentZeroIn (tlvDecode p).regs (tlvDecode p).av :=
  tlvDecode_bank_induction absentZeroIn_zero (fun f v _ _ h => h.extract f v) p

/-- A commit replaces the whole bank, so what was absent before it does not matter (R162). -/
theorem State.recordCommit_absentZero (p : List Byte) (s : State) : (s.recordCommit p).AbsentZero := by
  intro f hf
  rw [recordCommit_avail, BitVec.getLsbD_setWidth] at hf
  have hlt : f.number < 32 := f.number_lt.trans (by norm_num)
  rw [recordCommit_fields]
  exact tlvDecode_absentZeroIn p f (by simpa [hlt] using hf)

theorem State.reset_absentZero : State.reset.AbsentZero := fun f _ => by
  cases f <;> rfl

/-- The property reads `AVAIL` and the field registers only. -/
theorem State.AbsentZero.of_eq {s t : State} (h : s.AbsentZero) (havail : t.avail = s.avail)
    (hfields : t.fields = s.fields) : t.AbsentZero := by
  intro f hf
  rw [hfields]
  exact h f (havail ▸ hf)

/-- A soft reset clears the bank (R214). -/
theorem State.softReset_absentZero (s : State) : s.softReset.AbsentZero :=
  State.reset_absentZero

/-- No move of a BYTE but a measurement frame's commit touches the bank (R71, R146, R147). -/
theorem ByteMove.absentZero {b : Byte} {s t : State} (hmove : ByteMove b s t) (h : s.AbsentZero) : t.AbsentZero := by
  cases hmove with
  | noMarker => rw [State.noMarker, State.loseSync_eq]; exact h
  | secondMarker => rw [State.secondMarker_eq]; exact h
  | brokenMarker => rw [State.brokenMarker, State.loseSync_eq]; split <;> exact h
  | acceptMeasurement => exact State.recordCommit_absentZero _ (s.frameAccepted _ b)
  | extSkip => rw [State.extSkip_eq]; exact h
  | _ => exact h

/-- A host command keeps absent fields at 0. -/
theorem exec_keeps_absentZero {cmd : Half} {wdata : Word} {s t : State} (h : s.AbsentZero)
    (hexec : exec (decodeCommand cmd wdata) s = .next t) : t.AbsentZero := by
  obtain ⟨u, rfl, hu⟩ := exec_decodeCommand_next hexec
  suffices u.AbsentZero from this
  obtain ⟨b, -, hmove⟩ | ⟨i, -, rfl⟩ | ⟨i, -, rfl⟩ | rfl := hu
  · exact hmove.absentZero h
  · have kept := State.readReg_streamKept i.toNat s.beginStep
    exact h.of_eq kept.avail kept.fields
  · obtain ⟨-, -, hreset⟩ | kept := State.writeReg_cases i.toNat wdata s.beginStep
    · rw [hreset]
      exact State.softReset_absentZero _
    · exact h.of_eq kept.avail kept.fields
  · exact h

end Machine
end Sys2Proof

open Sys2Proof Sys2Proof.Machine

/-- Settles O54: a commit rebuilds the bank from a cleared working set, resets clear it, and nothing else writes it. -/
theorem absentFieldsStayZero : Obligations.AbsentFieldsStayZero := by
  intro s t h hstep
  obtain ⟨-, rfl⟩ | ⟨rest, -, rfl⟩ | ⟨cmd, wdata, rest, u, -, hexec, rfl⟩ := step_next_cases hstep
  · exact h
  · exact State.reset_absentZero
  · have hu : u.AbsentZero := exec_keeps_absentZero (s := { s with inputs := rest }) h hexec
    exact hu

end

section
/-! SUPPORT. The register file as a READ sees it: packed words as sums of their fields (10_state.md R24, R25, R36, R40;
44_host_access.md R211). -/

namespace Sys2Proof.Machine

/-! ### Packed words -/

@[simp] theorem boolWord_toNat (b : Bool) : (boolWord b).toNat = b.toNat := by
  cases b <;> rfl

/-- A field of `m` bits packed above a word that ends below it: the two never overlap, so the packing is a sum. -/
theorem toNat_field_or {m k : Nat} {x : BitVec m} {y : Word} (hx : m + k ≤ 32) (hy : y.toNat < 2 ^ k) :
    (x.setWidth 32 <<< k ||| y).toNat = x.toNat * 2 ^ k + y.toNat := by
  have hfit : x.toNat * 2 ^ k < 2 ^ 32 :=
    calc x.toNat * 2 ^ k < 2 ^ m * 2 ^ k := by gcongr; exact x.isLt
      _ = 2 ^ (m + k) := (pow_add 2 m k).symm
      _ ≤ 2 ^ 32 := Nat.pow_le_pow_right two_pos hx
  have hxlt : x.toNat < 2 ^ 32 := x.isLt.trans_le (Nat.pow_le_pow_right two_pos (by omega))
  rw [BitVec.toNat_or, BitVec.toNat_shiftLeft, BitVec.toNat_setWidth, Nat.mod_eq_of_lt hxlt, Nat.shiftLeft_eq,
    Nat.mod_eq_of_lt hfit, ← Nat.shiftLeft_eq, Nat.shiftLeft_add_eq_or_of_lt hy]

/-- A field of `m` bits packed at bit `k` ends below bit `m + k`. -/
theorem field_or_lt {m k : Nat} {x : BitVec m} {y : Word} (hx : m + k ≤ 32) (hy : y.toNat < 2 ^ k) :
    (x.setWidth 32 <<< k ||| y).toNat < 2 ^ (m + k) := by
  rw [toNat_field_or hx hy]
  calc x.toNat * 2 ^ k + y.toNat < (x.toNat + 1) * 2 ^ k := by rw [add_mul, one_mul]; omega
    _ ≤ 2 ^ m * 2 ^ k := Nat.mul_le_mul_right _ x.isLt
    _ = 2 ^ (m + k) := (pow_add 2 m k).symm

/-- A bit packed at bit `k`. -/
theorem toNat_bit_or {k : Nat} {b : Bool} {y : Word} (hk : 1 + k ≤ 32) (hy : y.toNat < 2 ^ k) :
    (boolWord b <<< k ||| y).toNat = b.toNat * 2 ^ k + y.toNat := by
  rw [boolWord, toNat_field_or hk hy, BitVec.toNat_ofBool]

/-! ### The packed registers -/

/-- `REC_STATUS` field by field (R36). -/
theorem packRecStatus_toNat (w : TlvWork) :
    (packRecStatus w).toNat = w.lastunk.toNat * 2 ^ 16 + w.nrec.toNat * 2 ^ 8 + w.lg.toNat * 2 ^ 4 +
      w.sh.toNat * 2 ^ 3 + w.un.toNat * 2 ^ 2 + w.tr.toNat * 2 + 1 := by
  have htr : (boolWord w.tr <<< 1 ||| 1#32).toNat < 2 ^ 2 := field_or_lt (by norm_num) (by norm_num)
  have hun : (boolWord w.un <<< 2 ||| _).toNat < 2 ^ 3 := field_or_lt (by norm_num) htr
  have hsh : (boolWord w.sh <<< 3 ||| _).toNat < 2 ^ 4 := field_or_lt (by norm_num) hun
  have hlg : (boolWord w.lg <<< 4 ||| _).toNat < 2 ^ 5 := field_or_lt (by norm_num) hsh
  replace hlg := hlg.trans (by norm_num : 2 ^ 5 < 2 ^ 8)
  have hnrec : (w.nrec.setWidth 32 <<< 8 ||| _).toNat < 2 ^ 16 := field_or_lt (by norm_num) hlg
  simp only [packRecStatus, BitVec.or_assoc]
  rw [toNat_field_or (by norm_num) hnrec, toNat_field_or (by norm_num) hlg, toNat_bit_or (by norm_num) hsh,
    toNat_bit_or (by norm_num) hun, toNat_bit_or (by norm_num) htr, toNat_bit_or (by norm_num) (by norm_num)]
  simp only [pow_one, Nat.add_assoc]
  rfl

/-- `STATUS` field by field (R25). -/
theorem packStatus_toNat (fidx : BitVec 9) (curLen : Byte) (fst : FrameState) (sync : Bool) :
    (packStatus fidx curLen fst sync).toNat =
      fidx.toNat * 2 ^ 16 + curLen.toNat * 2 ^ 8 + fst.code.toNat * 2 + sync.toNat := by
  have hsync : (boolWord sync).toNat < 2 ^ 1 := (boolWord_toNat sync).trans_lt sync.toNat_lt
  have hfst : (fst.code.setWidth 32 <<< 1 ||| boolWord sync).toNat < 2 ^ 5 := field_or_lt (by norm_num) hsync
  replace hfst := hfst.trans (by norm_num : 2 ^ 5 < 2 ^ 8)
  have hlen : (curLen.setWidth 32 <<< 8 ||| _).toNat < 2 ^ 16 := field_or_lt (by norm_num) hfst
  simp only [packStatus, BitVec.or_assoc]
  rw [toNat_field_or (by norm_num) hlen, toNat_field_or (by norm_num) hfst, toNat_field_or (by norm_num) hsync,
    boolWord_toNat]
  simp only [pow_one, Nat.add_assoc]

/-- `DBG` field by field (R40). -/
theorem packDbg_toNat (acc : Byte) (skipRem : BitVec 17) :
    (packDbg acc skipRem).toNat = acc.toNat * 2 ^ 24 + skipRem.toNat := by
  have hskip : (skipRem.setWidth 32).toNat = skipRem.toNat := by simp; omega
  rw [packDbg, toNat_field_or (by norm_num) (by omega), hskip]

/-- `CTRL` holds `CKSEL` at bit 1 (R24). -/
theorem ctrl_toNat (cksel : Bool) : (boolWord cksel <<< 1).toNat = 2 * cksel.toNat := by
  cases cksel <;> rfl

end Sys2Proof.Machine

open Sys2Proof Sys2Proof.Machine

/-- Settles O11: the packed registers field by field, the others as they are stored. -/
theorem registerFileLayout : Obligations.RegisterFileLayout := fun s w =>
  ⟨packRecStatus_toNat w, ctrl_toNat s.cksel, packStatus_toNat s.fidx s.curLen s.fst s.sync, rfl, rfl,
    packDbg_toNat s.acc s.skipRem, rfl⟩

end

section
/-! SUPPORT. The registers' part of the invariant: reserved bits, `LAST_CAUSE`, the cleared working set (10_state.md
R26 to R28, R36, R38, R41). -/

namespace Sys2Proof.Machine

/-! ### Masks -/

section Masks
variable {w : Nat} {a b m : BitVec w}

theorem or_mask_eq_zero (ha : a &&& m = 0) (hb : b &&& m = 0) : (a ||| b) &&& m = 0 := by
  ext i hi
  have hai := congrArg (·[i]) ha
  have hbi := congrArg (·[i]) hb
  simp only [BitVec.getElem_and, BitVec.getElem_or, Bool.and_or_distrib_right] at *
  simp [hai, hbi]

theorem and_mask_eq_zero (ha : a &&& m = 0) : (a &&& b) &&& m = 0 := by
  rw [BitVec.and_assoc, BitVec.and_comm b, ← BitVec.and_assoc, ha]
  exact BitVec.zero_and

/-- A word below `2 ^ k` has no bit in a mask from bit `k` on. -/
theorem and_high_eq_zero {k : Nat} (y : BitVec w) (ha : a.toNat < 2 ^ k) : a &&& y <<< k = 0 := by
  apply BitVec.eq_of_getLsbD_eq
  intro i hi
  obtain hik | hik := Nat.lt_or_ge i k
  · simp [hik]
  · have : a.getLsbD i = false := Nat.testBit_lt_two_pow (ha.trans_le (Nat.pow_le_pow_right two_pos hik))
    simp [this]

end Masks

/-- Every event has a defined bit of `EVENTS` (R26). -/
theorem EventCode.bit_defined (e : EventCode) : e.bit &&& ~~~Config.eventMask = 0 := by
  cases e <;> decide

/-- Bits 5 to 7 of a packed `REC_STATUS` are reserved (R36). -/
theorem packRecStatus_reserved (w : TlvWork) : packRecStatus w &&& 0x000000E0 = 0 := by
  apply BitVec.eq_of_getLsbD_eq
  intro i hi
  by_cases hmask : i = 5 ∨ i = 6 ∨ i = 7
  · obtain rfl | rfl | rfl := hmask <;> simp [packRecStatus, boolWord]
  · have : (0x000000E0#32).getLsbD i = false := by interval_cases i <;> simp_all
    simp [this]

/-! ### The bank of a commit -/

/-- The reserved bits of the field registers are 0 (R41). -/
def FieldRegs.ReservedOk (r : FieldRegs) : Prop :=
  r.pktCnt &&& 0xFFFF0000 = 0 ∧ r.utcHms &&& 0xFF000000 = 0

theorem FieldRegs.zero_reservedOk : FieldRegs.zero.ReservedOk :=
  ⟨rfl, rfl⟩

/-- `UTC_HMS` is packed into 24 bits (R173). -/
theorem utcHms_lt (sec min hour : Byte) :
    ((sec.setWidth 32 <<< 16) ||| (min.setWidth 32 <<< 8) ||| hour.setWidth 32 : Word).toNat < 2 ^ 24 := by
  have hhour : (hour.setWidth 32).toNat < 2 ^ 8 := by bv_omega
  rw [BitVec.or_assoc]
  exact field_or_lt (by norm_num) (field_or_lt (by norm_num) hhour)

/-- No extraction writes a reserved bit (R171, R173). -/
theorem FieldRegs.ReservedOk.extract {r : FieldRegs} (h : r.ReservedOk) (f : Field) (v : List Byte) :
    (extract v r f).ReservedOk := by
  obtain ⟨hpkt, hhms⟩ := h
  cases f with
  | pktCnt =>
    have hlt : ((be16 v 0).setWidth 32).toNat < 2 ^ 16 := by simp; omega
    exact ⟨and_high_eq_zero 0xFFFF#32 hlt, hhms⟩
  | utc => exact ⟨hpkt, and_high_eq_zero 0xFF#32 (utcHms_lt (byteOf v 10) (byteOf v 9) (byteOf v 8))⟩
  | _ => exact ⟨hpkt, hhms⟩

theorem tlvDecode_reservedOk (p : List Byte) : (tlvDecode p).regs.ReservedOk :=
  tlvDecode_bank_induction (P := fun r _ => r.ReservedOk) FieldRegs.zero_reservedOk (fun f v _ _ h => h.extract f v) p

/-- The bits a record commit sets in `EVENTS` are those of the events it raises (R162, R231). -/
theorem State.recordCommit_events (p : List Byte) (s : State) :
    (s.recordCommit p).events =
      (commitRaises (s.recStatus.getLsbD 0) (tlvDecode p)).foldr (fun e ev => ev ||| e.bit) s.events := by
  simp only [recordCommit, commitRaises, emit_events, raiseIf_events, raise_events]
  cases (tlvDecode p).lg <;> cases (tlvDecode p).sh <;> cases (tlvDecode p).un <;> cases (tlvDecode p).tr <;>
    cases s.recStatus.getLsbD 0 <;> rfl

theorem foldr_bit_defined (es : List EventCode) {ev : Word} (h : ev &&& ~~~Config.eventMask = 0) :
    es.foldr (fun e ev => ev ||| e.bit) ev &&& ~~~Config.eventMask = 0 := by
  induction es with
  | nil => exact h
  | cons e es ih => exact or_mask_eq_zero ih e.bit_defined

/-! ### The cause (R233) -/

theorem lowestCause_le {es : List EventCode} {c : Nat} (h : lowestCause es = some c) : c ≤ 10 := by
  induction es generalizing c with
  | nil => simp [lowestCause] at h
  | cons e es ih =>
    unfold lowestCause at h
    split at h
    next he =>
      split at h
      all_goals injection h with h
      · omega
      · omega
    next => exact ih h

/-- The end of a step leaves a legal cause (R28, R233). -/
theorem State.CauseOk.endStep {s : State} (h : s.CauseOk) : s.endStep.CauseOk := by
  unfold State.CauseOk
  rw [State.endStep_lastCause, causeAfter]
  cases hc : lowestCause s.raised with
  | none => exact h
  | some c => exact .inr ⟨c, lowestCause_le hc, rfl⟩

/-! ### The registers' part of the invariant -/

/-- What the invariant says of the registers that hold no part of the stream. -/
def State.RegsOk (s : State) : Prop :=
  s.CauseOk ∧ s.ReservedOk ∧ s.work = TlvWork.init

namespace State.RegsOk
variable {s : State}

theorem raise (e : EventCode) (h : s.RegsOk) : (s.raise e).RegsOk := by
  obtain ⟨hcause, ⟨hevents, hrest⟩, hwork⟩ := h
  exact ⟨hcause, ⟨or_mask_eq_zero hevents e.bit_defined, hrest⟩, hwork⟩

theorem loseSync (h : s.RegsOk) : s.loseSync.RegsOk := by
  unfold State.loseSync
  split
  · exact raise .syncLost h
  · exact h

theorem discard (h : s.RegsOk) : s.discard.RegsOk :=
  raise .discard h

theorem secondMarker (h : s.RegsOk) : s.secondMarker.RegsOk := by
  unfold State.secondMarker
  dsimp only
  split
  · exact h
  · exact raise .syncAcq h

theorem brokenMarker (b : Byte) (h : s.RegsOk) : (s.brokenMarker b).RegsOk := by
  unfold State.brokenMarker
  dsimp only
  split
  · exact h.loseSync.discard
  · exact h.loseSync.discard.discard

theorem frameAccepted (mid ck : Byte) (h : s.RegsOk) : (s.frameAccepted mid ck).RegsOk :=
  raise .frameOk h

/-- A record commit packs no reserved bit, and clears the working set after use (R162, R232). -/
theorem recordCommit (p : List Byte) (h : s.RegsOk) : (s.recordCommit p).RegsOk := by
  obtain ⟨hcause, ⟨hevents, hirq, -, -, -⟩, -⟩ := h
  have havail : ((tlvDecode p).av.setWidth 32).toNat < 2 ^ 17 := by simp; omega
  refine ⟨?_, ⟨?_, ?_, ?_, ?_, ?_⟩, recordCommit_work p s⟩
  · rw [CauseOk, recordCommit_lastCause]
    exact hcause
  · rw [recordCommit_events]
    exact foldr_bit_defined _ hevents
  · rw [recordCommit_irqEn]
    exact hirq
  · rw [recordCommit_recStatus]
    exact packRecStatus_reserved _
  · rw [recordCommit_avail]
    exact and_high_eq_zero 0x7FFF#32 havail
  · rw [recordCommit_fields]
    exact tlvDecode_reservedOk p

theorem byteMove {b : Byte} {t : State} (h : s.RegsOk) (hmove : ByteMove b s t) : t.RegsOk := by
  cases hmove with
  | noMarker => exact h.loseSync.discard
  | secondMarker => exact h.secondMarker
  | brokenMarker => exact h.brokenMarker b
  | extendedLen => exact raise .extlen h
  | rejectFrame => exact raise .ckerr h
  | acceptOther => exact h.frameAccepted _ b
  | acceptMeasurement => exact (h.frameAccepted _ b).recordCommit _
  | extSkip => rw [extSkip_eq]; exact h
  | _ => exact h

theorem readReg (i : Nat) (h : s.RegsOk) : (s.readReg i).RegsOk := by
  unfold State.readReg
  split
  · exact h
  · exact raise .badReg h

theorem badCommand (h : s.RegsOk) : s.badCommand.RegsOk :=
  raise .badCmd h

theorem softReset (h : s.RegsOk) : s.softReset.RegsOk := by
  obtain ⟨-, ⟨-, hirq, -⟩, hwork⟩ := h
  exact ⟨.inl rfl, ⟨BitVec.zero_and, hirq, BitVec.zero_and, BitVec.zero_and, FieldRegs.zero_reservedOk⟩, hwork⟩

/-- The writes keep the reserved bits: those of `EVENTS`, `IRQ_EN` and `REC_STATUS` by their masks (R215, R216,
R218), the others by writing 0. -/
theorem writeReg (i : Nat) (v : Word) (h : s.RegsOk) : (s.writeReg i v).RegsOk := by
  obtain ⟨hcause, ⟨hevents, hirq, hstatus, hbank⟩, hwork⟩ := h
  unfold State.writeReg
  split
  case h_1 =>
    split
    · exact softReset ⟨hcause, ⟨hevents, hirq, hstatus, hbank⟩, hwork⟩
    · exact ⟨hcause, ⟨hevents, hirq, hstatus, hbank⟩, hwork⟩
  case h_2 => exact ⟨hcause, ⟨and_mask_eq_zero hevents, hirq, hstatus, hbank⟩, hwork⟩
  case h_3 =>
    refine ⟨hcause, ⟨hevents, ?_, hstatus, hbank⟩, hwork⟩
    rw [BitVec.and_assoc, BitVec.and_not_self]
    exact BitVec.and_zero
  case h_4 => exact ⟨.inl rfl, ⟨hevents, hirq, hstatus, hbank⟩, hwork⟩
  case h_11 =>
    split
    · exact ⟨hcause, ⟨hevents, hirq, and_mask_eq_zero hstatus, hbank⟩, hwork⟩
    · exact ⟨hcause, ⟨hevents, hirq, hstatus, hbank⟩, hwork⟩
  case h_12 => exact raise .badReg ⟨hcause, ⟨hevents, hirq, hstatus, hbank⟩, hwork⟩
  all_goals exact ⟨hcause, ⟨hevents, hirq, hstatus, hbank⟩, hwork⟩

end State.RegsOk

end Sys2Proof.Machine
end

section
/-! SUPPORT. The stream's part of the invariant: the frame held in `FBUF`, and the position by state of `fst`
(10_state.md R21 to R23, R42; 40_frame_sync.md R111 to R124). -/

namespace Sys2Proof.Machine

theorem byteSum_append (l : List Byte) (b : Byte) : byteSum (l ++ [b]) = byteSum l + b := by
  induction l with
  | nil => simp [byteSum]
  | cons c l ih => simp only [List.cons_append, byteSum, ih, BitVec.add_assoc]

namespace State

@[simp] theorem heldBytes_length (s : State) : s.heldBytes.length = s.fidx.toNat := by
  simp [heldBytes]

/-! ### The frame in progress -/

/-- What the invariant says of the frame in progress: the frame buffer in canonical form, the held bytes written, the
header's bytes, and the running sum. -/
def FrameOk (s : State) : Prop :=
  s.fbuf.wf = true ∧ (∀ a, a < s.fidx.toNat → (s.fbuf.read? a).isSome = true) ∧ s.HeaderOk ∧
    s.acc = byteSum (s.heldBytes.drop 2)

/-- With nothing held the frame is right. -/
theorem FrameOk.of_empty {s : State} (hmem : s.fbuf.wf = true) (hfidx : s.fidx = 0) (hacc : s.acc = 0) : s.FrameOk := by
  have hnone : s.fidx.toNat = 0 := by simp [hfidx]
  have hheld : s.heldBytes = [] := List.eq_nil_of_length_eq_zero (by simp [hnone])
  refine ⟨hmem, fun a ha => by omega, ⟨fun ha => by omega, fun ha => by omega, fun ha => by omega⟩, ?_⟩
  rw [hheld, hacc]
  rfl

/-- Nothing is summed before the MID (R113, R142). -/
theorem FrameOk.acc_eq_zero {s : State} (h : s.FrameOk) (hfidx : s.fidx.toNat ≤ 2) : s.acc = 0 := by
  obtain ⟨-, -, -, hacc⟩ := h
  rw [hacc, List.drop_eq_nil_of_le (by simpa using hfidx)]
  rfl

/-- From `s` to `t` the byte `b` was taken as the next byte of the frame: stored at `FIDX`, a marker byte at a marker's
place, `CUR_LEN` at the LEN byte's, and summed from the MID on (R111, R113, R116, R117, R119). -/
structure Pushed (b : Byte) (s t : State) : Prop where
  room : s.fidx.toNat < Config.fbufSize
  fbuf : t.fbuf = s.fbuf.write s.fidx.toNat b
  fidx : t.fidx.toNat = s.fidx.toNat + 1
  draws : t.draws = s.draws
  marker0 : s.fidx.toNat = 0 → b = Config.marker0
  marker1 : s.fidx.toNat = 1 → b = Config.marker1
  curLen : 3 ≤ s.fidx.toNat → t.curLen = if s.fidx.toNat = 3 then b else s.curLen
  acc : t.acc = if s.fidx.toNat < 2 then 0 else s.acc + b

namespace Pushed
variable {b : Byte} {s t : State}

theorem read_last (h : Pushed b s t) : t.fbuf.read? s.fidx.toNat = some b := by
  rw [h.fbuf, Memory.read?_write_same]

theorem read_before (h : Pushed b s t) {a : Nat} (ha : a < s.fidx.toNat) : t.fbuf.read? a = s.fbuf.read? a := by
  rw [h.fbuf, Memory.read?_write_other _ _ _ ha.ne]

theorem byteAt_before (h : Pushed b s t) {a : Nat} (ha : a < s.fidx.toNat) : t.byteAt a = s.byteAt a := by
  have ha' : a < t.fidx.toNat := by rw [h.fidx]; omega
  simp only [byteAt, ha, ha', if_true, h.read_before ha, h.draws]

theorem heldBytes_eq (h : Pushed b s t) : t.heldBytes = s.heldBytes ++ [b] := by
  have hlast : t.byteAt s.fidx.toNat = b := byteAt_of_read (by rw [h.fidx]; omega) h.read_last
  have hbefore : (List.range s.fidx.toNat).map t.byteAt = s.heldBytes :=
    List.map_congr_left fun a ha => h.byteAt_before (List.mem_range.1 ha)
  rw [heldBytes, h.fidx, List.range_succ, List.map_append, hbefore, List.map_singleton, hlast]

theorem header (h : Pushed b s t) (hs : s.HeaderOk) : t.HeaderOk := by
  obtain ⟨h0, h1, h3⟩ := hs
  have hread (a : Nat) : a < t.fidx.toNat → a = s.fidx.toNat ∨ a < s.fidx.toNat := by rw [h.fidx]; omega
  refine ⟨fun ht => ?_, fun ht => ?_, fun ht => ?_⟩
  · obtain ha | ha := hread 0 ht
    · rw [ha, h.read_last, h.marker0 ha.symm]
    · rw [h.read_before ha, h0 ha]
  · obtain ha | ha := hread 1 ht
    · rw [ha, h.read_last, h.marker1 ha.symm]
    · rw [h.read_before ha, h1 ha]
  · obtain ha | ha := hread 3 ht
    · rw [h.curLen ha.le, if_pos ha.symm, ha, h.read_last]
    · rw [h.curLen ha.le, if_neg ha.ne', h.read_before ha, h3 ha]

theorem accSum (h : Pushed b s t) (hs : s.acc = byteSum (s.heldBytes.drop 2)) :
    t.acc = byteSum (t.heldBytes.drop 2) := by
  rw [h.acc, h.heldBytes_eq]
  split
  next hlt =>
    rw [List.drop_eq_nil_of_le (by simp; omega)]
    rfl
  next hge => rw [List.drop_append_of_le_length (by simp; omega), byteSum_append, hs]

/-- Taking the next byte keeps the frame right. -/
theorem frameOk (h : Pushed b s t) (hs : s.FrameOk) : t.FrameOk := by
  obtain ⟨hmem, hheld, hheader, hacc⟩ := hs
  refine ⟨?_, fun a ha => ?_, h.header hheader, h.accSum hacc⟩
  · rw [h.fbuf]
    exact Memory.write_wf h.room hmem
  · obtain rfl | ha : a = s.fidx.toNat ∨ a < s.fidx.toNat := by rw [h.fidx] at ha; omega
    · rw [h.read_last]
      rfl
    · rw [h.read_before ha]
      exact hheld a ha

end Pushed

/-! ### The stream, by state of `fst` -/

/-- What the invariant says of the stream. -/
def StreamOk (s : State) : Prop :=
  s.FrameOk ∧ s.PositionOk ∧ s.SkipOk ∧ s.SyncOk

variable {s : State}

theorem streamOk_m0 (h : s.fst = .m0) :
    s.StreamOk ↔ s.FrameOk ∧ s.fidx = 0 ∧ s.curLen = 0 ∧ s.skipRem = 0 := by
  simp [StreamOk, PositionOk, SkipOk, SyncOk, h, and_assoc]

theorem streamOk_m1 (h : s.fst = .m1) :
    s.StreamOk ↔ s.FrameOk ∧ s.fidx = 1 ∧ s.curLen = 0 ∧ s.skipRem = 0 := by
  simp [StreamOk, PositionOk, SkipOk, SyncOk, h, and_assoc]

theorem streamOk_mid (h : s.fst = .mid) :
    s.StreamOk ↔ s.FrameOk ∧ s.fidx = 2 ∧ s.curLen = 0 ∧ s.skipRem = 0 ∧ s.sync = true := by
  simp [StreamOk, PositionOk, SkipOk, SyncOk, h, and_assoc]

theorem streamOk_len (h : s.fst = .len) :
    s.StreamOk ↔ s.FrameOk ∧ s.fidx = 3 ∧ s.curLen = 0 ∧ s.skipRem = 0 ∧ s.sync = true := by
  simp [StreamOk, PositionOk, SkipOk, SyncOk, h, and_assoc]

theorem streamOk_pay (h : s.fst = .pay) :
    s.StreamOk ↔ s.FrameOk ∧ 4 ≤ s.fidx.toNat ∧ s.fidx.toNat ≤ 3 + s.curLen.toNat ∧
      s.curLen.toNat ≤ Config.maxPayload ∧ s.skipRem = 0 ∧ s.sync = true := by
  simp [StreamOk, PositionOk, SkipOk, SyncOk, h, and_assoc]

theorem streamOk_cks (h : s.fst = .cks) :
    s.StreamOk ↔ s.FrameOk ∧ s.fidx.toNat = 4 + s.curLen.toNat ∧ s.curLen.toNat ≤ Config.maxPayload ∧
      s.skipRem = 0 ∧ s.sync = true := by
  simp [StreamOk, PositionOk, SkipOk, SyncOk, h, and_assoc]

theorem streamOk_xlh (h : s.fst = .xlh) :
    s.StreamOk ↔ s.FrameOk ∧ s.fidx = 0 ∧ s.curLen = 0 ∧ s.skipRem = 0 ∧ s.sync = true := by
  simp [StreamOk, PositionOk, SkipOk, SyncOk, h, and_assoc]

theorem streamOk_xll (h : s.fst = .xll) :
    s.StreamOk ↔ s.FrameOk ∧ s.fidx = 0 ∧ s.curLen = 0 ∧ (∃ hi : Byte, s.skipRem = hi.setWidth 17 <<< 8) ∧
      s.sync = true := by
  simp only [StreamOk, PositionOk, SkipOk, SyncOk, h, and_assoc]

theorem streamOk_xsk (h : s.fst = .xsk) :
    s.StreamOk ↔ s.FrameOk ∧ s.fidx = 0 ∧ s.curLen = 0 ∧ 1 ≤ s.skipRem.toNat ∧ s.skipRem.toNat ≤ 65536 ∧
      s.sync = true := by
  simp only [StreamOk, PositionOk, SkipOk, SyncOk, h, and_assoc]

/-! ### Every move of a BYTE keeps the stream right -/

namespace StreamOk
variable {b : Byte}

/-- A frame start with nothing held (R111, R214, R260). -/
theorem of_empty (hmem : s.fbuf.wf = true) (hfst : s.fst = .m0) (hfidx : s.fidx = 0) (hlen : s.curLen = 0)
    (hacc : s.acc = 0) (hskip : s.skipRem = 0) : s.StreamOk :=
  (streamOk_m0 hfst).2 ⟨.of_empty hmem hfidx hacc, hfidx, hlen, hskip⟩

/-- The first marker byte, in a state that holds nothing (R111, R114). -/
theorem firstMarker (hframe : s.FrameOk) (hfidx : s.fidx = 0) (hlen : s.curLen = 0) (hskip : s.skipRem = 0) :
    s.firstMarker.StreamOk := by
  have hacc : s.acc = 0 := hframe.acc_eq_zero (by simp [hfidx])
  have pushed : Pushed Config.marker0 s s.firstMarker := by
    constructor <;> simp [State.firstMarker, hfidx, hacc, Config.fbufSize]
  exact (streamOk_m1 rfl).2 ⟨pushed.frameOk hframe, rfl, hlen, hskip⟩

theorem noMarker (h : s.StreamOk) (hfst : s.fst = .m0) : s.noMarker.StreamOk := by
  have hs := (streamOk_m0 hfst).1 h
  rw [State.noMarker, loseSync_eq]
  refine (streamOk_m0 ?_).2 hs
  exact hfst

theorem secondMarker (h : s.StreamOk) (hfst : s.fst = .m1) : s.secondMarker.StreamOk := by
  obtain ⟨hframe, hfidx, hlen, hskip⟩ := (streamOk_m1 hfst).1 h
  rw [secondMarker_eq]
  refine (streamOk_mid rfl).2 ⟨Pushed.frameOk (b := Config.marker1) ?_ hframe, rfl, hlen, hskip, rfl⟩
  constructor <;> simp [hfidx, Config.fbufSize]

/-- The buffered byte is let go, and `b` is examined as in `M0` (R114). -/
theorem brokenMarker (h : s.StreamOk) (hfst : s.fst = .m1) : (s.brokenMarker b).StreamOk := by
  obtain ⟨hframe, hfidx, hlen, hskip⟩ := (streamOk_m1 hfst).1 h
  have hacc : s.acc = 0 := hframe.acc_eq_zero (by simp [hfidx])
  rw [State.brokenMarker, loseSync_eq]
  dsimp only
  split
  · exact firstMarker (.of_empty hframe.1 rfl hacc) rfl hlen hskip
  · exact of_empty hframe.1 rfl rfl hlen hacc hskip

theorem midByte (h : s.StreamOk) (hfst : s.fst = .mid) : (s.midByte b).StreamOk := by
  obtain ⟨hframe, hfidx, hlen, hskip, hsync⟩ := (streamOk_mid hfst).1 h
  have pushed : Pushed b s (s.midByte b) := by
    constructor <;> simp [State.midByte, hfidx, Config.fbufSize]
  exact (streamOk_len rfl).2 ⟨pushed.frameOk hframe, rfl, hlen, hskip, hsync⟩

theorem extendedLen (h : s.StreamOk) (hfst : s.fst = .len) : s.extendedLen.StreamOk := by
  obtain ⟨hframe, -, hlen, hskip, hsync⟩ := (streamOk_len hfst).1 h
  exact (streamOk_xlh rfl).2 ⟨.of_empty hframe.1 rfl rfl, rfl, hlen, hskip, hsync⟩

/-- A standard length is at most 254 (R88, R117). -/
theorem standardLen (h : s.StreamOk) (hfst : s.fst = .len) (hb : b ≠ Config.extLen) : (s.standardLen b).StreamOk := by
  obtain ⟨hframe, hfidx, -, hskip, hsync⟩ := (streamOk_len hfst).1 h
  have pushed : Pushed b s (s.standardLen b) := by
    constructor <;> simp [State.standardLen, hfidx, Config.fbufSize]
  have hframe' := pushed.frameOk hframe
  by_cases hzero : b = 0
  · subst hzero
    exact (streamOk_cks rfl).2 ⟨hframe', rfl, Nat.zero_le _, hskip, hsync⟩
  · have hle : b.toNat ≤ Config.maxPayload := by
      have : b.toNat ≠ 255 := fun h255 => hb (BitVec.eq_of_toNat_eq h255)
      have := b.isLt
      simp only [Config.maxPayload]
      omega
    have hpos : 4 ≤ 3 + b.toNat := by
      have : b.toNat ≠ 0 := fun h0 => hzero (BitVec.eq_of_toNat_eq h0)
      omega
    exact (streamOk_pay (if_neg hzero)).2 ⟨hframe', le_rfl, hpos, hle, hskip, hsync⟩

/-- The last payload byte is the one that brings `FIDX` to the checksum's place (R119). -/
theorem payloadByte (h : s.StreamOk) (hfst : s.fst = .pay) (hroom : s.fidx.toNat < Config.fbufSize) :
    StreamOk { s with
      fbuf := s.fbuf.write s.fidx.toNat b, fidx := s.fidx + 1, acc := s.acc + b
      fst := if s.fidx + 1 = 4 + s.curLen.setWidth 9 then .cks else s.fst } := by
  obtain ⟨hframe, hlow, hhigh, hmax, hskip, hsync⟩ := (streamOk_pay hfst).1 h
  have hroom' : s.fidx.toNat < 258 := hroom
  have hnext : (s.fidx + 1).toNat = s.fidx.toNat + 1 := by bv_omega
  have hend : (4 + s.curLen.setWidth 9).toNat = 4 + s.curLen.toNat := by bv_omega
  have hframe' (f : FrameState) :
      FrameOk { s with fbuf := s.fbuf.write s.fidx.toNat b, fidx := s.fidx + 1, acc := s.acc + b, fst := f } := by
    refine Pushed.frameOk (b := b) ?_ hframe
    exact {
      room := hroom, fbuf := rfl, fidx := hnext, draws := rfl
      marker0 := fun h0 => by omega
      marker1 := fun h1 => by omega
      curLen := fun _ => (if_neg (by omega)).symm
      acc := (if_neg (by omega)).symm }
  by_cases hlast : s.fidx + 1 = 4 + s.curLen.setWidth 9
  · refine (streamOk_cks (if_pos hlast)).2 ⟨hframe' _, ?_, hmax, hskip, hsync⟩
    exact (congrArg BitVec.toNat hlast).trans hend
  · have hne : s.fidx.toNat + 1 ≠ 4 + s.curLen.toNat := fun he =>
      hlast (BitVec.eq_of_toNat_eq (hnext.trans (he.trans hend.symm)))
    have hle : s.fidx.toNat + 1 ≤ 3 + s.curLen.toNat := by omega
    refine (streamOk_pay ((if_neg hlast).trans hfst)).2 ⟨hframe' _, ?_, ?_, hmax, hskip, hsync⟩
    · exact (hlow.trans (Nat.le_succ _)).trans_eq hnext.symm
    · exact hnext.trans_le hle

/-- The end of a commit empties the frame (R144). -/
theorem closeFrame (hmem : s.fbuf.wf = true) (hskip : s.skipRem = 0) : s.closeFrame.StreamOk :=
  of_empty hmem rfl rfl rfl rfl hskip

/-- What a commit finds, and leaves to `closeFrame`. -/
theorem at_commit (h : s.StreamOk) (hfst : s.fst = .cks) : s.fbuf.wf = true ∧ s.skipRem = 0 := by
  obtain ⟨⟨hmem, -⟩, -, -, hskip, -⟩ := (streamOk_cks hfst).1 h
  exact ⟨hmem, hskip⟩

theorem extHigh (h : s.StreamOk) (hfst : s.fst = .xlh) : (s.extHigh b).StreamOk := by
  obtain ⟨hframe, hfidx, hlen, -, hsync⟩ := (streamOk_xlh hfst).1 h
  exact (streamOk_xll rfl).2 ⟨hframe, hfidx, hlen, ⟨b, rfl⟩, hsync⟩

/-- An extended length of 16 bits and its checksum byte leave 1 to 65536 bytes to skip (R122). -/
theorem extLow (h : s.StreamOk) (hfst : s.fst = .xll) : (s.extLow b).StreamOk := by
  obtain ⟨hframe, hfidx, hlen, ⟨hi, hskip⟩, hsync⟩ := (streamOk_xll hfst).1 h
  have hhi : (hi.setWidth 17 <<< 8).toNat < 2 ^ 16 := by
    simp only [BitVec.toNat_shiftLeft, BitVec.toNat_setWidth, Nat.shiftLeft_eq]
    omega
  have hb : (b.setWidth 17).toNat < 2 ^ 16 := by bv_omega
  have hor : (s.skipRem ||| b.setWidth 17).toNat < 2 ^ 16 := by
    rw [hskip, BitVec.toNat_or]
    exact Nat.or_lt_two_pow hhi hb
  have hnext : ((s.skipRem ||| b.setWidth 17) + 1).toNat = (s.skipRem ||| b.setWidth 17).toNat + 1 := by bv_omega
  refine (streamOk_xsk rfl).2 ⟨hframe, hfidx, hlen, ?_, ?_, hsync⟩
  · exact (Nat.le_add_left 1 _).trans_eq hnext.symm
  · exact hnext.trans_le hor

theorem extSkip (h : s.StreamOk) (hfst : s.fst = .xsk) : s.extSkip.StreamOk := by
  obtain ⟨hframe, hfidx, hlen, hlow, hhigh, hsync⟩ := (streamOk_xsk hfst).1 h
  rw [extSkip_eq]
  by_cases hlast : s.skipRem - 1 = 0
  · exact (streamOk_m0 (if_pos hlast)).2 ⟨hframe, hfidx, hlen, hlast⟩
  · have hpos : 1 ≤ (s.skipRem - 1).toNat := by bv_omega
    have hle : (s.skipRem - 1).toNat ≤ 65536 := by bv_omega
    exact (streamOk_xsk ((if_neg hlast).trans hfst)).2 ⟨hframe, hfidx, hlen, hpos, hle, hsync⟩

theorem byteMove {t : State} (h : s.StreamOk) (hmove : ByteMove b s t) : t.StreamOk := by
  cases hmove with
  | firstMarker hfst =>
    obtain ⟨hframe, hfidx, hlen, hskip⟩ := (streamOk_m0 hfst).1 h
    exact firstMarker hframe hfidx hlen hskip
  | noMarker hfst => exact h.noMarker hfst
  | secondMarker hfst => exact h.secondMarker hfst
  | brokenMarker hfst => exact h.brokenMarker hfst
  | midByte hfst => exact h.midByte hfst
  | extendedLen hfst => exact h.extendedLen hfst
  | standardLen hfst hb => exact h.standardLen hfst hb
  | payloadByte hfst hroom => exact h.payloadByte hfst hroom
  | rejectFrame hfst =>
    obtain ⟨hmem, hskip⟩ := h.at_commit hfst
    exact closeFrame hmem hskip
  | acceptOther hfst =>
    obtain ⟨hmem, hskip⟩ := h.at_commit hfst
    exact closeFrame hmem hskip
  | acceptMeasurement hfst =>
    obtain ⟨hmem, hskip⟩ := h.at_commit hfst
    exact closeFrame ((congrArg Memory.wf (recordCommit_fbuf _ _)).trans hmem) ((recordCommit_skipRem _ _).trans hskip)
  | extHigh hfst => exact h.extHigh hfst
  | extLow hfst => exact h.extLow hfst
  | extSkip hfst => exact h.extSkip hfst

end StreamOk
end State
end Sys2Proof.Machine
end

section
/-! SUPPORT. The invariant of the machine is kept by every step (10_state.md). -/

namespace Sys2Proof.Machine

namespace State
variable {s t : State}

/-! ### Host accesses and the stream -/

theorem byteAt_of_kept (kept : StreamKept s t) : t.byteAt = s.byteAt := by
  funext a
  simp only [byteAt, kept.fidx, kept.fbuf, kept.draws]

/-- The stream's part of the invariant reads nothing that a host access moves. -/
theorem StreamOk.of_kept (h : s.StreamOk) (kept : StreamKept s t) : t.StreamOk := by
  simpa only [StreamOk, FrameOk, HeaderOk, PositionOk, SkipOk, SyncOk, heldBytes, byteAt_of_kept kept, kept.fst,
    kept.sync, kept.fbuf, kept.fidx, kept.curLen, kept.acc, kept.skipRem] using h

/-- A soft reset empties the frame and keeps the content of `FBUF` (R214). -/
theorem StreamOk.softReset (h : s.StreamOk) : s.softReset.StreamOk := by
  obtain ⟨⟨hmem, -⟩, -⟩ := h
  exact .of_empty hmem rfl rfl rfl rfl rfl

theorem StreamOk.writeReg (h : s.StreamOk) (i : Nat) (v : Word) : (s.writeReg i v).StreamOk := by
  obtain ⟨-, -, hreset⟩ | kept := writeReg_cases i v s
  · rw [hreset]
    exact StreamOk.softReset (s := { s with cksel := v.getLsbD 1 }) h
  · exact h.of_kept kept

/-! ### The invariant in three parts -/

/-- The invariant is what it says of the stream, of the registers, and of the `irq` output. -/
theorem inv_iff : s.Inv ↔ s.StreamOk ∧ s.RegsOk ∧ s.out.irq = s.irq := by
  constructor
  · intro h
    exact ⟨⟨⟨h.memory, h.held, h.header, h.accSum⟩, h.position, h.skip, h.synced⟩,
      ⟨h.cause, h.reserved, h.localWork⟩, h.irqOut⟩
  · rintro ⟨⟨⟨memory, held, header, accSum⟩, position, skip, synced⟩, ⟨cause, reserved, localWork⟩, irqOut⟩
    exact { memory, held, position, skip, synced, header, accSum, cause, reserved, localWork, irqOut }

/-- The invariant reads neither the pending inputs nor the observation of the run. -/
theorem Inv.with_inputs_trace (h : s.Inv) (inputs : List Input) (trace : List StepOut) :
    State.Inv { s with inputs := inputs, trace := trace } := by
  obtain ⟨hstream, hregs, hirq⟩ := inv_iff.1 h
  exact inv_iff.2 ⟨hstream, hregs, hirq⟩

/-- The end of a step evaluates `irq`, and so completes the invariant (R233, R236). -/
theorem inv_endStep (hstream : s.StreamOk) (hregs : s.RegsOk) : s.endStep.Inv := by
  obtain ⟨hcause, hreserved, hwork⟩ := hregs
  exact inv_iff.2 ⟨hstream, ⟨hcause.endStep, hreserved, hwork⟩, rfl⟩

theorem reset_inv : State.reset.Inv :=
  inv_iff.2 ⟨.of_empty State.reset_memory_wf rfl rfl rfl rfl rfl,
    ⟨.inl rfl, ⟨BitVec.zero_and, BitVec.zero_and, BitVec.zero_and, BitVec.zero_and, FieldRegs.zero_reservedOk⟩, rfl⟩,
    rfl⟩

/-- With nothing held no free value is read, so the invariant holds after a hardware reset, fresh draws or not
(R260). -/
theorem hardReset_inv (rest : List Input) : (s.hardReset rest).Inv := by
  obtain ⟨-, hregs, hirq⟩ := inv_iff.1 reset_inv
  exact inv_iff.2 ⟨.of_empty State.reset_memory_wf rfl rfl rfl rfl rfl, hregs, hirq⟩

end State

/-- Every host command keeps the invariant: each effect keeps the stream's and the registers' part. -/
theorem exec_keeps_inv {cmd : Half} {wdata : Word} {s t : State} (h : s.Inv)
    (hexec : exec (decodeCommand cmd wdata) s = .next t) : t.Inv := by
  obtain ⟨hstream, hregs, -⟩ := State.inv_iff.1 h
  replace hstream : s.beginStep.StreamOk := hstream
  replace hregs : s.beginStep.RegsOk := hregs
  obtain ⟨u, rfl, hu⟩ := exec_decodeCommand_next hexec
  obtain ⟨b, -, hmove⟩ | ⟨i, -, rfl⟩ | ⟨i, -, rfl⟩ | rfl := hu
  · exact State.inv_endStep (hstream.byteMove hmove) (hregs.byteMove hmove)
  · exact State.inv_endStep (hstream.of_kept (State.readReg_streamKept _ _)) (hregs.readReg _)
  · exact State.inv_endStep (hstream.writeReg _ _) (hregs.writeReg _ _)
  · exact State.inv_endStep (hstream.of_kept (State.badCommand_streamKept _)) hregs.badCommand

end Sys2Proof.Machine

open Sys2Proof Sys2Proof.Machine

/-- Settles O53: an idle step changes nothing, a hardware reset ends in R260's state, and a host command keeps the
invariant. -/
theorem everyStepKeepsInvariant : Obligations.EveryStepKeepsInvariant := by
  intro s t h hstep
  obtain ⟨-, rfl⟩ | ⟨rest, -, rfl⟩ | ⟨cmd, wdata, rest, u, -, hexec, rfl⟩ := step_next_cases hstep
  · exact h
  · exact State.hardReset_inv rest
  · have hu : u.Inv := exec_keeps_inv (h.with_inputs_trace rest s.trace) hexec
    exact hu.with_inputs_trace u.inputs _

/-- Settles O52. -/
theorem resetMeetsInvariant : Obligations.ResetMeetsInvariant :=
  ⟨State.reset_inv, State.reset_absentZero⟩

/-- Settles O50: nothing is held at reset, so every register packs zeros. -/
theorem resetValues : Obligations.ResetValues :=
  ⟨by decide, rfl, rfl, rfl, rfl, rfl, rfl, rfl, rfl, rfl⟩

end

section
/-! SUPPORT. The frame buffer under a BYTE (20_memory.md): where a BYTE stops, what it leaves alone, and that a READ
comes before it unnoticed. -/

namespace Sys2Proof.Machine

/-! ### Where a BYTE stops (R60, R119) -/

/-- A step whose effect stops, stops. -/
theorem runStep_of_fault {f : State → Result} {s : State} {r : Fault} (h : f s.beginStep = .fault r) :
    runStep f s = .fault r := by
  simp [runStep, h]

namespace State
variable {s : State} {b : Byte}

theorem takeByte_of_pay (hfst : s.fst = .pay) : s.takeByte b = s.payloadByte b := by
  simp [takeByte, hfst]

theorem takeByte_of_cks (hfst : s.fst = .cks) : s.takeByte b = s.commit b := by
  simp [takeByte, hfst]

theorem payloadByte_of_ge (h : Config.fbufSize ≤ s.fidx.toNat) :
    s.payloadByte b = .fault (.noSuchByte s.fidx.toNat) :=
  if_neg h.not_gt

/-- Of the lengths a byte can hold, 255 alone ends the payload outside `FBUF`. -/
theorem payloadFits_iff : s.PayloadFits ↔ s.curLen ≠ 255 := by
  simp only [PayloadFits, Config.fbufSize]
  bv_omega

theorem commit_of_mismatch (hb : b ≠ ckExpected s.acc s.cksel) : s.commit b = .next (s.rejectFrame (s.byteAt 2) b) :=
  if_pos hb

theorem commit_of_match (hb : b = ckExpected s.acc s.cksel) :
    s.commit b = s.acceptFrame (s.byteAt 2) b (decide (s.byteAt 2 = Config.measMid)) :=
  if_neg (not_not_intro hb)

theorem acceptFrame_of_not_fits {mid : Byte} {m : Bool} (h : ¬ s.PayloadFits) :
    s.acceptFrame mid b m = .fault (.noSuchByte Config.fbufSize) :=
  if_neg h

/-- A commit completes if it rejects the frame, or finds the payload in `FBUF` (R144). -/
theorem commit_completes (h : s.PayloadFits ∨ b ≠ ckExpected s.acc s.cksel) : ∃ t, s.commit b = .next t := by
  by_cases hb : b = ckExpected s.acc s.cksel
  · have hfits : s.PayloadFits := h.resolve_right (not_not_intro hb)
    exact ⟨_, (commit_of_match hb).trans (acceptFrame_next_iff.2 ⟨hfits, rfl⟩)⟩
  · exact ⟨_, commit_of_mismatch hb⟩

/-- Only a payload byte and a commit need a byte of `FBUF` that may not exist; every other state rule is total
(R110). -/
theorem takeByte_completes (hpay : s.fst = .pay → s.fidx.toNat < Config.fbufSize)
    (hcks : s.fst = .cks → s.PayloadFits ∨ b ≠ ckExpected s.acc s.cksel) : ∃ t, s.takeByte b = .next t := by
  cases hfst : s.fst
  case pay => exact ⟨_, (takeByte_of_pay hfst).trans (payloadByte_of_lt (hpay hfst))⟩
  case cks =>
    rw [takeByte_of_cks hfst]
    exact commit_completes (hcks hfst)
  all_goals
    simp only [takeByte, hfst]
    exact ⟨_, rfl⟩

end State

/-! ### What a BYTE leaves alone (R60, R71, R129) -/

/-- What the host configures: `CKSEL` and `IRQ_EN`. -/
def State.configuration (s : State) : Bool × Word := (s.cksel, s.irqEn)

/-- The record bank: the field registers, `AVAIL`, `REC_STATUS` and `REC_SEQ` (R71). -/
def State.recordBank (s : State) : FieldRegs × Word × Word × Word := (s.fields, s.avail, s.recStatus, s.recSeq)

/-- The positions of `FBUF` at which a BYTE may store, by state of `fst` (R111, R113, R114, R116, R117, R119). -/
def State.StoresAt (s : State) (a : Nat) : Prop :=
  match s.fst with
  | .m0 => a = 0
  | .m1 => a = 0 ∨ a = 1
  | .mid => a = 2
  | .len => a = 3
  | .pay => a = s.fidx.toNat
  | .cks | .xlh | .xll | .xsk => False

namespace ByteMove
variable {b : Byte} {s t : State}

/-- No state rule writes the configuration (R129). -/
theorem configuration_eq (hmove : ByteMove b s t) : t.configuration = s.configuration := by
  cases hmove with
  | noMarker => rw [State.noMarker, State.loseSync_eq]; rfl
  | secondMarker => rw [State.secondMarker_eq]; rfl
  | brokenMarker => rw [State.brokenMarker, State.loseSync_eq]; split <;> rfl
  | acceptMeasurement => exact Prod.ext (State.recordCommit_cksel _ _) (State.recordCommit_irqEn _ _)
  | extSkip => rw [State.extSkip_eq]; rfl
  | firstMarker | midByte | extendedLen | standardLen | payloadByte | rejectFrame | acceptOther | extHigh | extLow => rfl

/-- The valid commit of a measurement frame is the one move that writes the record bank (R71, R146, R147). -/
theorem measurement_or_recordBank_eq (hmove : ByteMove b s t) :
    (s.fst = .cks ∧ b = ckExpected s.acc s.cksel ∧ s.byteAt 2 = Config.measMid) ∨ t.recordBank = s.recordBank := by
  cases hmove with
  | acceptMeasurement hfst hb _ hmid => exact .inl ⟨hfst, hb, hmid⟩
  | noMarker => right; rw [State.noMarker, State.loseSync_eq]; rfl
  | secondMarker => right; rw [State.secondMarker_eq]; rfl
  | brokenMarker => right; rw [State.brokenMarker, State.loseSync_eq]; split <;> rfl
  | extSkip => right; rw [State.extSkip_eq]; rfl
  | firstMarker | midByte | extendedLen | standardLen | payloadByte | rejectFrame | acceptOther | extHigh | extLow =>
    exact .inr rfl

/-- A move stores one byte at most, at a position that `fst` gives (R60). -/
theorem fbuf_cases (hmove : ByteMove b s t) :
    t.fbuf = s.fbuf ∨ ∃ a v, s.StoresAt a ∧ t.fbuf = s.fbuf.write a v := by
  cases hmove with
  | firstMarker hfst => exact .inr ⟨0, Config.marker0, by simp [State.StoresAt, hfst], rfl⟩
  | noMarker => left; rw [State.noMarker, State.loseSync_eq]; rfl
  | secondMarker hfst =>
    rw [State.secondMarker_eq]
    exact .inr ⟨1, Config.marker1, by simp [State.StoresAt, hfst], rfl⟩
  | brokenMarker hfst =>
    rw [State.brokenMarker, State.loseSync_eq]
    split
    · exact .inr ⟨0, Config.marker0, by simp [State.StoresAt, hfst], rfl⟩
    · exact .inl rfl
  | midByte hfst => exact .inr ⟨2, b, by simp [State.StoresAt, hfst], rfl⟩
  | standardLen hfst => exact .inr ⟨3, b, by simp [State.StoresAt, hfst], rfl⟩
  | payloadByte hfst => exact .inr ⟨s.fidx.toNat, b, by simp [State.StoresAt, hfst], rfl⟩
  | acceptMeasurement => exact .inl (State.recordCommit_fbuf _ _)
  | extSkip => left; rw [State.extSkip_eq]
  | extendedLen | rejectFrame | acceptOther | extHigh | extLow => exact .inl rfl

/-- Every other position reads as before. -/
theorem read_of_not_storesAt (hmove : ByteMove b s t) {a : Nat} (ha : ¬ s.StoresAt a) :
    t.fbuf.read? a = s.fbuf.read? a := by
  obtain hsame | ⟨p, v, hp, hwrite⟩ := hmove.fbuf_cases
  · rw [hsame]
  · have hne : a ≠ p := fun he => ha (he ▸ hp)
    rw [hwrite, Memory.read?_write_other _ _ _ hne]

end ByteMove

/-! ### A READ before a BYTE (R67, R125) -/

/-- A step depends on the state at its beginning alone. -/
theorem runStep_congr (f : State → Result) {s t : State} (h : s.beginStep = t.beginStep) : runStep f s = runStep f t := by
  simp only [runStep, h]

/-- A finished READ of a mapped register leaves only its output behind, which the next step drops (R67). -/
theorem State.beginStep_after_readReg {i : Nat} (hi : i ≤ Config.lastMapped) (s : State) :
    (s.beginStep.readReg i).endStep.beginStep = s.beginStep := by
  rw [State.readReg, if_pos hi]
  rfl

end Sys2Proof.Machine

open Sys2Proof Sys2Proof.Machine

/-- Settles O24: `takeByte_completes` gives the completing states; past `FBUF` the payload byte and the commit fault. -/
theorem byteCompletesInsideFbuf : Obligations.ByteCompletesInsideFbuf := by
  intro b s
  refine ⟨fun hpay hcks => ?_, fun hfst hfidx => ?_, fun hfst hlen hb => ?_⟩
  · obtain ⟨u, hu⟩ : ∃ u, s.beginStep.takeByte b = .next u :=
      State.takeByte_completes hpay fun hfst => (hcks hfst).imp_left State.payloadFits_iff.2
    exact ⟨u.endStep, runStep_of_next hu⟩
  · exact runStep_of_fault (f := State.takeByte b)
      ((State.takeByte_of_pay (s := s.beginStep) hfst).trans (State.payloadByte_of_ge hfidx))
  · have hnot : ¬ s.beginStep.PayloadFits := fun hfits => State.payloadFits_iff.1 hfits hlen
    have hcommit : s.beginStep.commit b = .fault (.noSuchByte Config.fbufSize) :=
      (State.commit_of_match (s := s.beginStep) hb).trans (State.acceptFrame_of_not_fits hnot)
    exact runStep_of_fault (f := State.takeByte b) ((State.takeByte_of_cks (s := s.beginStep) hfst).trans hcommit)

/-- Settles O47: the three frame facts of the move that the BYTE made. -/
theorem byteFrame : Obligations.ByteFrame := by
  intro b s t h
  obtain ⟨u, hu, rfl⟩ := runStep_next_iff.mp h
  have hmove : ByteMove b s.beginStep u := State.takeByte_move hu
  obtain ⟨hcksel, hirqEn⟩ := Prod.mk.inj hmove.configuration_eq
  refine ⟨hcksel, hirqEn, fun hno => ?_, fun a ha => hmove.read_of_not_storesAt fun hstore => ?_⟩
  · have hbank : u.recordBank = s.recordBank := hmove.measurement_or_recordBank_eq.resolve_left hno
    simpa [State.recordBank] using hbank
  · cases hfst : s.fst <;>
      simp only [State.StoresAt, State.beginStep_fst, State.beginStep_fidx, hfst] at hstore ha
    all_goals omega

/-- Settles O17: the BYTE begins in the same state with and without the READ. -/
theorem readDoesNotDisturbTheStream : Obligations.ReadDoesNotDisturbTheStream := by
  intro i b s t hi h
  obtain rfl : (s.beginStep.readReg i.toNat).endStep = t := Host.Outcome.next.inj h
  exact runStep_congr (State.takeByte b) (State.beginStep_after_readReg hi s)

end

section
/-! SUPPORT. The encodings (30_encoding.md): each decoder on what its encoder builds, and every word as built so. -/

namespace Sys2Proof

/-! ### Host command words (R80, R84, R85)

A command word is its class `cmd[15:14]` before the 14 bits that a reserved word carries. -/

/-- Two words of two parts are equal when their parts are. -/
theorem bitVec_append_inj {m k : Nat} {a c : BitVec m} {b d : BitVec k} : a ++ b = c ++ d ↔ a = c ∧ b = d := by
  constructor
  · intro h
    have hhigh := congrArg (BitVec.extractLsb' k m) h
    have hlow := congrArg (BitVec.extractLsb' 0 k) h
    simp only [BitVec.extractLsb'_append_eq_left, BitVec.extractLsb'_append_eq_right] at hhigh hlow
    exact ⟨hhigh, hlow⟩
  · rintro ⟨rfl, rfl⟩
    rfl

/-- A mask that keeps all but the low `k` bits compares the class with `p` and the `m` bits after it with 0, as each
pattern of R80 does. -/
theorem and_mask_eq_iff {n m k : Nat} (c p : BitVec n) (x : BitVec (m + k)) :
    (c ++ x) &&& (BitVec.allOnes n ++ (BitVec.allOnes m ++ 0#k)) = p ++ (0#m ++ 0#k) ↔
      c = p ∧ x.extractLsb' k m = 0 := by
  have hx : x &&& (BitVec.allOnes m ++ 0#k) = x.extractLsb' k m ++ 0#k := by
    conv_lhs => rw [← BitVec.extractLsb'_append_extractLsb' (x := x)]
    rw [BitVec.and_append, BitVec.and_allOnes, BitVec.and_zero]
  rw [BitVec.and_append, BitVec.and_allOnes, hx, bitVec_append_inj, bitVec_append_inj]
  simp

/-- The decoder, by the class and the 14 bits after it (R80, R84). -/
theorem decodeCommand_append (c : BitVec 2) (x : BitVec 14) (wdata : Word) :
    decodeCommand (c ++ x) wdata =
      if c = 0 ∧ x.extractLsb' 8 6 = 0 then .byte (x.extractLsb' 0 8)
      else if c = 1 ∧ x.extractLsb' 7 7 = 0 then .rd (x.extractLsb' 0 7)
      else if c = 2 ∧ x.extractLsb' 7 7 = 0 then .wr (x.extractLsb' 0 7) wdata
      else if c = 0 then .reservedByte x
      else if c = 1 then .reservedRead x
      else if c = 2 then .reservedWrite x
      else .reservedOp3 x := by
  have hbyte : (c ++ x : Half) &&& 0xFF00 = 0x0000 ↔ c = 0 ∧ x.extractLsb' 8 6 = 0 :=
    and_mask_eq_iff (m := 6) (k := 8) c 0 x
  have hrd : (c ++ x : Half) &&& 0xFF80 = 0x4000 ↔ c = 1 ∧ x.extractLsb' 7 7 = 0 :=
    and_mask_eq_iff (m := 7) (k := 7) c 1 x
  have hwr : (c ++ x : Half) &&& 0xFF80 = 0x8000 ↔ c = 2 ∧ x.extractLsb' 7 7 = 0 :=
    and_mask_eq_iff (m := 7) (k := 7) c 2 x
  have hclass : (c ++ x).extractLsb' 14 2 = c := BitVec.extractLsb'_append_eq_left
  have hrest : (c ++ x).extractLsb' 0 14 = x := BitVec.extractLsb'_append_eq_right
  have hlow (k : Nat) (hk : k ≤ 14) : (c ++ x).extractLsb' 0 k = x.extractLsb' 0 k :=
    BitVec.extractLsb'_append_eq_of_add_le (by omega)
  simp only [decodeCommand, hbyte, hrd, hwr, hclass, hrest, hlow 8 (by norm_num), hlow 7 (by norm_num)]

/-! The patterns of R80, as a class and the bits after it. -/

theorem byteWord_eq (d : Byte) : (0x00#8 ++ d : Half) = 0#2 ++ (0#6 ++ d) :=
  BitVec.append_assoc (x₁ := 0#2) (x₂ := 0#6)
theorem rdWord_eq (i : BitVec 7) : (0b010000000#9 ++ i : Half) = 1#2 ++ (0#7 ++ i) :=
  BitVec.append_assoc (x₁ := 1#2) (x₂ := 0#7)
theorem wrWord_eq (i : BitVec 7) : (0b100000000#9 ++ i : Half) = 2#2 ++ (0#7 ++ i) :=
  BitVec.append_assoc (x₁ := 2#2) (x₂ := 0#7)

/-- The two parts of the 14 bits that end in a register index (R82, R83). -/
theorem index_bits (i : BitVec 7) :
    (0#7 ++ i : BitVec 14).extractLsb' 7 7 = 0 ∧ (0#7 ++ i : BitVec 14).extractLsb' 0 7 = i :=
  ⟨BitVec.extractLsb'_append_eq_left, BitVec.extractLsb'_append_eq_right⟩

/-- What a word built from each pattern of R80 and R84 decodes to; a reserved word is built from no other. -/
inductive CommandForm (wdata : Word) : Half → Instr → Prop
  | byte (d : Byte) : CommandForm wdata (0x00#8 ++ d) (.byte d)
  | rd (i : BitVec 7) : CommandForm wdata (0b010000000#9 ++ i) (.rd i)
  | wr (i : BitVec 7) : CommandForm wdata (0b100000000#9 ++ i) (.wr i wdata)
  | reservedByte (x : BitVec 14) (hx : x.extractLsb' 8 6 ≠ 0) : CommandForm wdata (0b00#2 ++ x) (.reservedByte x)
  | reservedRead (x : BitVec 14) (hx : x.extractLsb' 7 7 ≠ 0) : CommandForm wdata (0b01#2 ++ x) (.reservedRead x)
  | reservedWrite (x : BitVec 14) (hx : x.extractLsb' 7 7 ≠ 0) : CommandForm wdata (0b10#2 ++ x) (.reservedWrite x)
  | reservedOp3 (x : BitVec 14) : CommandForm wdata (0b11#2 ++ x) (.reservedOp3 x)

/-- A word of a form decodes to the form's instruction. -/
theorem CommandForm.decode_eq {wdata : Word} {cmd : Half} {i : Instr} (h : CommandForm wdata cmd i) :
    decodeCommand cmd wdata = i := by
  cases h with
  | byte d =>
    have hhigh : (0#6 ++ d : BitVec 14).extractLsb' 8 6 = 0 := BitVec.extractLsb'_append_eq_left
    have hlow : (0#6 ++ d : BitVec 14).extractLsb' 0 8 = d := BitVec.extractLsb'_append_eq_right
    rw [byteWord_eq, decodeCommand_append, hlow, if_pos ⟨rfl, hhigh⟩]
  | rd i =>
    obtain ⟨hhigh, hlow⟩ := index_bits i
    simp [rdWord_eq, decodeCommand_append, hhigh, hlow]
  | wr i =>
    obtain ⟨hhigh, hlow⟩ := index_bits i
    simp [wrWord_eq, decodeCommand_append, hhigh, hlow]
  | reservedByte x hx => simpa [decodeCommand_append] using hx
  | reservedRead x hx => simpa [decodeCommand_append] using hx
  | reservedWrite x hx => simpa [decodeCommand_append] using hx
  | reservedOp3 x => simp [decodeCommand_append]

/-- 14 bits whose upper part is 0. -/
theorem eq_zero_append {m k : Nat} {x : BitVec (m + k)} (h : x.extractLsb' k m = 0) :
    x = 0#m ++ x.extractLsb' 0 k := by
  conv_lhs => rw [← BitVec.extractLsb'_append_extractLsb' (x := x), h]
  rfl

/-- Every word is of a form (R84, R85). -/
theorem exists_commandForm (cmd : Half) (wdata : Word) : ∃ i, CommandForm wdata cmd i := by
  obtain ⟨c, x, rfl⟩ : ∃ (c : BitVec 2) (x : BitVec 14), cmd = c ++ x :=
    ⟨_, _, (BitVec.extractLsb'_append_extractLsb' (w := 2) (len := 14)).symm⟩
  obtain rfl | rfl | rfl | rfl : c = 0 ∨ c = 1 ∨ c = 2 ∨ c = 3 := by revert c; decide
  · by_cases hx : x.extractLsb' 8 6 = 0
    · rw [eq_zero_append (m := 6) (k := 8) hx]
      exact ⟨_, byteWord_eq _ ▸ CommandForm.byte _⟩
    · exact ⟨_, .reservedByte x hx⟩
  · by_cases hx : x.extractLsb' 7 7 = 0
    · rw [eq_zero_append (m := 7) (k := 7) hx]
      exact ⟨_, rdWord_eq _ ▸ CommandForm.rd _⟩
    · exact ⟨_, .reservedRead x hx⟩
  · by_cases hx : x.extractLsb' 7 7 = 0
    · rw [eq_zero_append (m := 7) (k := 7) hx]
      exact ⟨_, wrWord_eq _ ▸ CommandForm.wr _⟩
    · exact ⟨_, .reservedWrite x hx⟩
  · exact ⟨_, .reservedOp3 x⟩

theorem decodeCommand_form (cmd : Half) (wdata : Word) : CommandForm wdata cmd (decodeCommand cmd wdata) := by
  obtain ⟨i, hi⟩ := exists_commandForm cmd wdata
  rwa [hi.decode_eq]

/-! ### Reserved words (R84, R221) -/

/-- R84's reserved words, bit by bit. -/
def IsReserved (cmd : Half) : Prop :=
  cmd.extractLsb' 14 2 = 3 ∨ (cmd.extractLsb' 14 2 = 0 ∧ cmd.extractLsb' 8 6 ≠ 0) ∨
    ((cmd.extractLsb' 14 2 = 1 ∨ cmd.extractLsb' 14 2 = 2) ∧ cmd.extractLsb' 7 7 ≠ 0)

/-- The rows of the reserved words that carry the bits `x` (log 10). -/
def reservedRows (x : BitVec 14) : List Instr :=
  [.reservedOp3 x, .reservedByte x, .reservedRead x, .reservedWrite x]

theorem isReserved_append (c : BitVec 2) (x : BitVec 14) :
    IsReserved (c ++ x) ↔
      c = 3 ∨ (c = 0 ∧ x.extractLsb' 8 6 ≠ 0) ∨ ((c = 1 ∨ c = 2) ∧ x.extractLsb' 7 7 ≠ 0) := by
  have hclass : (c ++ x).extractLsb' 14 2 = c := BitVec.extractLsb'_append_eq_left
  have hpart (start len : Nat) (h : start + len ≤ 14) : (c ++ x).extractLsb' start len = x.extractLsb' start len :=
    BitVec.extractLsb'_append_eq_of_add_le h
  rw [IsReserved, hclass, hpart 8 6 (by norm_num), hpart 7 7 (by norm_num)]

/-- A word is reserved exactly when its form is one of the four reserved ones. -/
theorem CommandForm.isReserved_iff {wdata : Word} {cmd : Half} {i : Instr} (h : CommandForm wdata cmd i) :
    IsReserved cmd ↔ ∃ x, i ∈ reservedRows x := by
  cases h with
  | byte d =>
    have hhigh : (0#6 ++ d : BitVec 14).extractLsb' 8 6 = 0 := BitVec.extractLsb'_append_eq_left
    simp [byteWord_eq, isReserved_append, reservedRows, hhigh]
  | rd i =>
    obtain ⟨hhigh, -⟩ := index_bits i
    simp [rdWord_eq, isReserved_append, reservedRows, hhigh]
  | wr i =>
    obtain ⟨hhigh, -⟩ := index_bits i
    simp [wrWord_eq, isReserved_append, reservedRows, hhigh]
  | reservedByte x hx => simpa [isReserved_append, reservedRows] using hx
  | reservedRead x hx => simpa [isReserved_append, reservedRows] using hx
  | reservedWrite x hx => simpa [isReserved_append, reservedRows] using hx
  | reservedOp3 x => simp [isReserved_append, reservedRows]

/-! ### TLV records (R91, R92) -/

/-- A known id names the field that it is the id of (R160). -/
theorem Field.ofId_id (f : Field) : Field.ofId f.id = some f := by
  cases f <;> decide

theorem Field.id_of_ofId {id : Half} {f : Field} (h : Field.ofId id = some f) : f.id = id := by
  simpa using List.find?_some h

theorem decodeRecord_of_known {id : Half} {f : Field} (h : Field.ofId id = some f) (v : List Byte) :
    decodeRecord id v = f.instr v := by
  simp [decodeRecord, h]

theorem decodeRecord_of_unknown {id : Half} (h : Field.ofId id = none) (v : List Byte) :
    decodeRecord id v = .tlvUnknown id v := by
  simp [decodeRecord, h]

theorem encode_fieldInstr (f : Field) (v : List Byte) : encode (f.instr v) = .record (recordBytes f.id v) := by
  cases f <;> rfl

theorem fieldInstr_wellFormed {f : Field} {v : List Byte} (h : ValueFits v) : (f.instr v).WellFormed := by
  cases f <;> exact h

theorem encode_decodeRecord (id : Half) (v : List Byte) : encode (decodeRecord id v) = .record (recordBytes id v) := by
  cases hid : Field.ofId id with
  | none => rw [decodeRecord_of_unknown hid]; rfl
  | some f => rw [decodeRecord_of_known hid, encode_fieldInstr, Field.id_of_ofId hid]

theorem decodeRecord_wellFormed {id : Half} {v : List Byte} (h : ValueFits v) : (decodeRecord id v).WellFormed := by
  cases hid : Field.ofId id with
  | none => rw [decodeRecord_of_unknown hid]; exact ⟨hid, h⟩
  | some f => rw [decodeRecord_of_known hid]; exact fieldInstr_wellFormed h

/-- What is read as a record stands at the head of the bytes as that record's encoding (R91). -/
theorem fetchRecord_eq_record {bytes : List Byte} {id : Half} {v : List Byte} (h : fetchRecord bytes = .record id v) :
    ValueFits v ∧ ∃ rest, bytes = recordBytes id v ++ rest := by
  unfold fetchRecord at h
  split at h
  case h_4 hi lo len rest =>
    split at h
    next => contradiction
    next hlen =>
      obtain ⟨rfl, rfl⟩ := RecordFetch.record.inj h
      have hv : (rest.take len.toNat).length = len.toNat := List.length_take_of_le (Nat.le_of_not_lt hlen)
      have hhigh : (hi ++ lo : Half).extractLsb' 8 8 = hi := BitVec.extractLsb'_append_eq_left
      have hlow : (hi ++ lo : Half).extractLsb' 0 8 = lo := BitVec.extractLsb'_append_eq_right
      exact ⟨hv.trans_le (Nat.le_of_lt_succ len.isLt), rest.drop len.toNat, by simp [recordBytes, hv, hhigh, hlow]⟩
  all_goals contradiction

/-- The bytes of a whole record decode as that record (R91, R92). -/
theorem decode_recordBytes (id : Half) {v : List Byte} (h : ValueFits v) :
    decode (.record (recordBytes id v)) = .ok (decodeRecord id v) := by
  have hfetch : fetchRecord (recordBytes id v) = .record id v := by
    simpa using fetchRecord_recordBytes (rest := []) h
  simp [decode, hfetch]

theorem decode_encode_fieldInstr (f : Field) {v : List Byte} (h : ValueFits v) :
    decode (encode (f.instr v)) = .ok (f.instr v) := by
  rw [encode_fieldInstr, decode_recordBytes f.id h, decodeRecord_of_known f.ofId_id]

/-- Bytes that decode as a record are one whole record, without a rest (R91). -/
theorem decode_record_eq_ok {bytes : List Byte} {i : Instr} (h : decode (.record bytes) = .ok i) :
    ∃ id v, ValueFits v ∧ bytes = recordBytes id v ∧ i = decodeRecord id v := by
  simp only [decode] at h
  split at h
  case h_4 id v hfetch =>
    split at h
    next hlen =>
      obtain ⟨hv, rest, rfl⟩ := fetchRecord_eq_record hfetch
      obtain rfl : rest = [] := by simpa using hlen
      exact ⟨id, v, hv, List.append_nil _, (Except.ok.inj h).symm⟩
    next => contradiction
  all_goals contradiction

end Sys2Proof

open Sys2Proof Sys2Proof.Machine

/-- Settles O5: a command word is of its row's form, a MID and a LEN byte pass their dispatch by their side condition,
and a record's bytes are fetched whole. -/
theorem decodeOfEncode : Obligations.DecodeOfEncode := by
  intro i hwf
  have command {cmd : Half} {wdata : Word} (h : CommandForm wdata cmd i) : decode (.command cmd wdata) = .ok i :=
    congrArg Except.ok h.decode_eq
  cases i with
  | byte d => exact command (.byte d)
  | rd i => exact command (.rd i)
  | wr i wdata => exact command (.wr i)
  | reservedOp3 x => exact command (.reservedOp3 x)
  | reservedByte x => exact command (.reservedByte x hwf)
  | reservedRead x => exact command (.reservedRead x hwf)
  | reservedWrite x => exact command (.reservedWrite x hwf)
  | frameMeas => rfl
  | frameOther mid => exact congrArg Except.ok (if_neg hwf)
  | lenStd n => exact congrArg Except.ok (if_neg hwf)
  | lenExt => rfl
  | tlvPktCnt v => exact decode_encode_fieldInstr .pktCnt hwf
  | tlvSampleTime v => exact decode_encode_fieldInstr .sampleTime hwf
  | tlvUtc v => exact decode_encode_fieldInstr .utc hwf
  | tlvEuler v => exact decode_encode_fieldInstr .euler hwf
  | tlvQuat v => exact decode_encode_fieldInstr .quat hwf
  | tlvAcc v => exact decode_encode_fieldInstr .acc hwf
  | tlvFacc v => exact decode_encode_fieldInstr .facc hwf
  | tlvRot v => exact decode_encode_fieldInstr .rot hwf
  | tlvMag v => exact decode_encode_fieldInstr .mag hwf
  | tlvLatLon v => exact decode_encode_fieldInstr .latLon hwf
  | tlvAlt v => exact decode_encode_fieldInstr .alt hwf
  | tlvVel v => exact decode_encode_fieldInstr .vel hwf
  | tlvStatusWord v => exact decode_encode_fieldInstr .statusWord hwf
  | tlvTemp v => exact decode_encode_fieldInstr .temp hwf
  | tlvBaro v => exact decode_encode_fieldInstr .baro hwf
  | tlvDv v => exact decode_encode_fieldInstr .dv hwf
  | tlvDq v => exact decode_encode_fieldInstr .dq hwf
  | tlvUnknown id v =>
    obtain ⟨hid, hv⟩ := hwf
    rw [← decodeRecord_of_unknown hid, encode_decodeRecord, decode_recordBytes id hv]

/-- Settles O6: the form of a word gives its instruction's side condition and encoding. -/
theorem everyCommandWordHasOneMeaning : Obligations.EveryCommandWordHasOneMeaning := by
  intro cmd wdata
  have hform := decodeCommand_form cmd wdata
  generalize decodeCommand cmd wdata = i at hform
  cases hform with
  | byte d => exact ⟨trivial, 0, rfl, fun _ h => nomatch h⟩
  | rd i => exact ⟨trivial, 0, rfl, fun _ h => nomatch h⟩
  | wr i => exact ⟨trivial, wdata, rfl, fun _ _ => rfl⟩
  | reservedByte x hx => exact ⟨hx, 0, rfl, fun _ h => nomatch h⟩
  | reservedRead x hx => exact ⟨hx, 0, rfl, fun _ h => nomatch h⟩
  | reservedWrite x hx => exact ⟨hx, 0, rfl, fun _ h => nomatch h⟩
  | reservedOp3 x => exact ⟨trivial, 0, rfl, fun _ h => nomatch h⟩

/-- Settles O7: the bytes are one whole record, and a record's instruction encodes to the record's bytes. -/
theorem recordBytesHaveOneMeaning : Obligations.RecordBytesHaveOneMeaning := by
  intro bytes i h
  obtain ⟨id, v, hv, rfl, rfl⟩ := decode_record_eq_ok h
  exact ⟨decodeRecord_wellFormed hv, encode_decodeRecord id v⟩

/-- Settles O9: a reserved word is one of a reserved form, and all four reserved rows run `badCommand`. -/
theorem reservedWordsOnlyRaiseBadCmd : Obligations.ReservedWordsOnlyRaiseBadCmd := by
  refine ⟨fun cmd wdata => (decodeCommand_form cmd wdata).isReserved_iff, fun x s i hi => ?_⟩
  have hrun : exec i s = .next s.beginStep.badCommand.endStep := by
    obtain rfl | rfl | rfl | rfl : i = .reservedOp3 x ∨ i = .reservedByte x ∨ i = .reservedRead x ∨
      i = .reservedWrite x := by simpa using hi
    all_goals rfl
  rw [hrun]
  rfl

/-- Settles O8: the decoders run on the words. -/
theorem specWordsDecode : Obligations.SpecWordsDecode := by
  unfold Obligations.SpecWordsDecode
  decide

end

section
/-! SUPPORT. The rows of the table that a BYTE runs (30_encoding.md R88, R90, R92): each is one state rule or one pass
of the decode loop, and what it leaves (40_frame_sync.md, 41_checksum.md R144, 42_tlv_parser.md R162). -/

namespace Sys2Proof.Machine

/-- A step depends on what its effect does at the step's beginning alone. -/
theorem runStep_congr_effect {f g : State → Result} {s : State} (h : f s.beginStep = g s.beginStep) :
    runStep f s = runStep g s := by
  simp only [runStep, h]

/-! ### Every row as its state rule -/

theorem State.takeByte_of_len {s : State} {b : Byte} (hfst : s.fst = .len) :
    s.takeByte b = .next (if b = Config.extLen then s.extendedLen else s.standardLen b) := by
  simp [State.takeByte, hfst]

/-- The LEN dispatch is a BYTE's in state `LEN` (R88, R110). -/
theorem exec_decodeLen (b : Byte) (s : State) :
    exec (decodeLen b) s =
      runStep (fun t => .next (if b = Config.extLen then t.extendedLen else t.standardLen b)) s := by
  unfold decodeLen
  split <;> rfl

/-- The MID dispatch is a valid commit's (R90, R144). -/
theorem exec_decodeMid (mid : Byte) (s : State) :
    exec (decodeMid mid) s =
      runStep (fun t => t.acceptFrame mid (ckExpected t.acc t.cksel) (decide (mid = Config.measMid))) s := by
  unfold decodeMid
  split
  next h => subst h; rfl
  next h => rw [decide_eq_false h]; rfl

theorem exec_byte_of_len {s : State} (hfst : s.fst = .len) (b : Byte) : exec (.byte b) s = exec (decodeLen b) s := by
  rw [exec_decodeLen]
  exact runStep_congr_effect (State.takeByte_of_len (s := s.beginStep) hfst)

theorem exec_byte_of_match {s : State} {b : Byte} (hfst : s.fst = .cks) (hb : b = ckExpected s.acc s.cksel) :
    exec (.byte b) s = exec (decodeMid (s.byteAt 2)) s := by
  rw [exec_decodeMid]
  refine runStep_congr_effect ?_
  calc s.beginStep.takeByte b
      = s.beginStep.commit b := State.takeByte_of_cks hfst
    _ = s.beginStep.acceptFrame (s.byteAt 2) b (decide (s.byteAt 2 = Config.measMid)) := State.commit_of_match hb
    _ = _ := by rw [hb]; rfl

theorem exec_fieldInstr (f : Field) (v : List Byte) (s : State) :
    exec (f.instr v) s = .next { s with work := s.work.known f v } := by
  cases f <;> rfl

theorem exec_decodeRecord (id : Half) (v : List Byte) (s : State) :
    exec (decodeRecord id v) s = .next { s with work := s.work.pass id v } := by
  unfold TlvWork.pass
  cases hid : Field.ofId id with
  | none => rw [decodeRecord_of_unknown hid]; rfl
  | some f => rw [decodeRecord_of_known hid, exec_fieldInstr]

/-! ### What a valid commit leaves (R144, R162) -/

/-- `LAST_FRAME` byte by byte (R35). -/
theorem packLastFrame_eq (exp ck curLen mid : Byte) : packLastFrame exp ck curLen mid = exp ++ ck ++ curLen ++ mid := by
  have hpack := BitVec.setWidth_append_append_append_eq_shiftLeft_setWidth_or (w'''' := 32) (b := exp) (b' := ck)
    (b'' := curLen) (b''' := mid)
  exact hpack.symm.trans (BitVec.setWidth_eq _)

/-- The bits of `EVENTS` that a list of events sets (R26, R231). -/
def eventBits (es : List EventCode) : Word := es.foldr (fun e ev => ev ||| e.bit) 0

theorem foldr_bit_eq (es : List EventCode) (ev : Word) :
    es.foldr (fun e ev => ev ||| e.bit) ev = ev ||| eventBits es := by
  induction es with
  | nil => exact BitVec.or_zero.symm
  | cons e es ih =>
    rw [List.foldr_cons, ih, BitVec.or_assoc]
    rfl

theorem State.recordCommit_eq (p : List Byte) (s : State) :
    s.recordCommit p =
      let w := tlvDecode p
      { s with
        fields := w.regs, avail := w.av.setWidth 32, recStatus := packRecStatus w, recSeq := s.recSeq + 1
        events := s.events ||| eventBits (commitRaises (s.recStatus.getLsbD 0) w)
        raised := commitRaises (s.recStatus.getLsbD 0) w ++ s.raised
        work := TlvWork.init
        out := { s.out with
          emitted := s.out.emitted ++ [.recordOut (s.recSeq + 1) (w.av.setWidth 32) (packRecStatus w) w.regs] } } := by
  have hevents := State.recordCommit_events p s
  rw [foldr_bit_eq] at hevents
  dsimp only
  rw [← hevents, ← State.recordCommit_raised]
  simp [State.recordCommit]

/-- The events of a valid measurement frame: the frame's own, and those of its record (R144, R162). -/
def measurementRaises (pending : Bool) (w : TlvWork) : List EventCode := commitRaises pending w ++ [.frameOk]

/-- What those events set in `EVENTS` (R26, R230). -/
theorem eventBits_measurementRaises (pending : Bool) (w : TlvWork) :
    eventBits (measurementRaises pending w) =
      0x60000 ||| (if pending then 0x20 else 0) ||| (if w.tr then 0x10 else 0) ||| (if w.un then 0x80 else 0) |||
        (if w.sh then 0x40 else 0) ||| (if w.lg then 0x100 else 0) := by
  simp only [measurementRaises, commitRaises]
  generalize w.tr = tr, w.un = un, w.sh = sh, w.lg = lg
  revert pending tr un sh lg
  decide

/-- Which of them is the cause: the lowest code among the warnings (R233). -/
theorem lowestCause_measurementRaises (pending : Bool) (w : TlvWork) :
    lowestCause (measurementRaises pending w) =
      if w.tr then some 4 else if pending then some 5 else if w.sh then some 6 else if w.un then some 7
      else if w.lg then some 8 else none := by
  simp only [measurementRaises, commitRaises]
  generalize w.tr = tr, w.un = un, w.sh = sh, w.lg = lg
  revert pending tr un sh lg
  decide

/-- Such a frame sets them on what was set before. -/
theorem or_eventBits_measurementRaises (ev : Word) (pending : Bool) (w : TlvWork) :
    ev ||| EventCode.frameOk.bit ||| eventBits (commitRaises pending w) =
      ev ||| eventBits (measurementRaises pending w) :=
  calc ev ||| EventCode.frameOk.bit ||| eventBits (commitRaises pending w)
      = (measurementRaises pending w).foldr (fun e ev => ev ||| e.bit) ev := by
        rw [measurementRaises, List.foldr_append, foldr_bit_eq]
        rfl
    _ = ev ||| eventBits (measurementRaises pending w) := foldr_bit_eq _ _

/-- `LAST_CAUSE` after such a frame (R28, R233). -/
theorem causeAfter_measurementRaises (pending : Bool) (w : TlvWork) (lastCause : Word) :
    causeAfter (measurementRaises pending w) lastCause =
      if w.tr then 0x80000004 else if pending then 0x80000005 else if w.sh then 0x80000006
      else if w.un then 0x80000007 else if w.lg then 0x80000008 else lastCause := by
  rw [causeAfter, lowestCause_measurementRaises]
  split_ifs <;> rfl

/-- A step that begins with a valid commit, up to the record (R144, R145). -/
theorem State.frameAccepted_beginStep (mid ck : Byte) (s : State) :
    s.beginStep.frameAccepted mid ck = { s with
      lastFrame := ckExpected s.acc s.cksel ++ ck ++ s.curLen ++ mid
      frameCnt := s.frameCnt + 1, events := s.events ||| EventCode.frameOk.bit, raised := [.frameOk]
      out := ⟨none, [.frameOut mid s.curLen s.payload ck], s.irq⟩ } := by
  rw [← packLastFrame_eq]
  rfl

theorem exec_frameOther {mid : Byte} {s : State} (hfits : s.PayloadFits) :
    exec (.frameOther mid) s =
      .next (s.beginStep.frameAccepted mid (ckExpected s.acc s.cksel)).closeFrame.endStep :=
  runStep_of_next (f := fun t => t.acceptFrame mid (ckExpected t.acc t.cksel) false)
    (State.acceptFrame_next_iff.2 ⟨hfits, rfl⟩)

theorem exec_frameMeas {s : State} (hfits : s.PayloadFits) :
    exec .frameMeas s =
      .next ((s.beginStep.frameAccepted Config.measMid (ckExpected s.acc s.cksel)).recordCommit
        s.payload).closeFrame.endStep :=
  runStep_of_next (f := fun t => t.acceptFrame Config.measMid (ckExpected t.acc t.cksel) true)
    (State.acceptFrame_next_iff.2 ⟨hfits, rfl⟩)

end Sys2Proof.Machine

open Sys2Proof Sys2Proof.Machine

/-- Settles O3: the LEN and MID dispatch give the rows that the state rules of `LEN` and of a valid commit are. -/
theorem byteRunsLenAndMidRows : Obligations.ByteRunsLenAndMidRows := fun _ b =>
  ⟨fun hfst => exec_byte_of_len hfst b, exec_byte_of_match⟩

/-- Settles O4, by the id dispatch: a known field's row and `TLV_UNKNOWN` are the two branches of a pass. -/
theorem recordRowIsOnePass : Obligations.RecordRowIsOnePass := fun s id v => exec_decodeRecord id v s

/-- Settles O20: the row is `standardLen` in a step of its own, and a byte other than `0xFF` is dispatched to it. -/
theorem standardLength : Obligations.StandardLength := by
  intro n s hn
  have hdecode : decodeLen n = .lenStd n := if_neg hn
  exact ⟨rfl, fun hfst => by rw [exec_byte_of_len hfst, hdecode]⟩

/-- Settles O21: the row is `extendedLen` in a step of its own, and `0xFF` is dispatched to it. -/
theorem extendedLengthDetected : Obligations.ExtendedLengthDetected := fun _ =>
  ⟨rfl, fun hfst => exec_byte_of_len hfst _⟩

/-- Settles O26: the accepted frame, closed; `FRAME_OK` is no cause. -/
theorem otherFrameIsEmittedNotParsed : Obligations.OtherFrameIsEmittedNotParsed := by
  intro mid s _ hlen
  rw [exec_frameOther (State.payloadFits_iff.2 hlen), State.frameAccepted_beginStep]
  rfl

/-- Settles O27: the accepted frame with its record committed, and its events by the flags of the decode. -/
theorem measurementFrameCommitsRecord : Obligations.MeasurementFrameCommitsRecord := by
  intro s hlen w pending ck events
  have hevents : s.events ||| EventCode.frameOk.bit ||| eventBits (commitRaises pending w) = events := by
    rw [or_eventBits_measurementRaises, eventBits_measurementRaises]
    simp only [events, BitVec.or_assoc]
  rw [exec_frameMeas (State.payloadFits_iff.2 hlen), State.frameAccepted_beginStep, State.recordCommit_eq, ← hevents,
    ← causeAfter_measurementRaises]
  rfl

end

section
/-! SUPPORT. Packed records (30_encoding.md R91): the decode loop takes them one by one (42_tlv_parser.md R161). -/

namespace Sys2Proof.Machine

/-- The passes over records, from the first to the last. -/
def TlvWork.passes (rs : List (Half × List Byte)) (w : TlvWork) : TlvWork :=
  rs.foldl (fun w r => w.pass r.1 r.2) w

theorem recordsBytes_cons (r : Half × List Byte) (rs : List (Half × List Byte)) :
    recordsBytes (r :: rs) = recordBytes r.1 r.2 ++ recordsBytes rs :=
  List.flatMap_cons

/-- A record has three header bytes, so there are no more records than bytes (R91). -/
theorem length_le_recordsBytes_length (rs : List (Half × List Byte)) : rs.length ≤ (recordsBytes rs).length := by
  induction rs with
  | nil => exact Nat.zero_le _
  | cons r rs ih =>
    rw [recordsBytes_cons, List.length_append, recordBytes_length, List.length_cons]
    omega

/-- At a record boundary, the loop runs the pass of every whole record that stands there and goes on at the bytes
after them. -/
theorem tlvLoop_recordsBytes {p tail : List Byte} (fuel : Nat) (rs : List (Half × List Byte))
    (hrs : ∀ r ∈ rs, r.2.length ≤ 255) :
    ∀ w : TlvWork, p.drop w.off = recordsBytes rs ++ tail →
      tlvLoop (rs.length + fuel) p w = tlvLoop fuel p (w.passes rs) ∧ p.drop (w.passes rs).off = tail := by
  induction rs with
  | nil => exact fun w hw => ⟨by rw [List.length_nil, Nat.zero_add]; rfl, hw⟩
  | cons r rs ih =>
    intro w hw
    obtain ⟨hr, hrs⟩ := List.forall_mem_cons.1 hrs
    rw [recordsBytes_cons, List.append_assoc] at hw
    have hfetch : fetchRecord (p.drop w.off) = .record r.1 r.2 := by rw [hw, fetchRecord_recordBytes hr]
    have hnext : p.drop (w.pass r.1 r.2).off = recordsBytes rs ++ tail := by
      rw [TlvWork.pass_off, Nat.add_assoc, ← List.drop_drop, hw, ← recordBytes_length r.1 r.2, List.drop_left]
    rw [List.length_cons, Nat.add_right_comm, tlvLoop_record hfetch]
    exact ih hrs _ hnext

/-- A decode runs the passes of the whole records that the payload begins with, and has fuel left for more (R161). -/
theorem tlvDecode_recordsBytes_append {rs : List (Half × List Byte)} (hrs : ∀ r ∈ rs, r.2.length ≤ 255)
    (tail : List Byte) :
    ∃ fuel, tlvDecode (recordsBytes rs ++ tail) =
        tlvLoop (fuel + 1) (recordsBytes rs ++ tail) (TlvWork.init.passes rs) ∧
      (recordsBytes rs ++ tail).drop (TlvWork.init.passes rs).off = tail := by
  have hle : rs.length ≤ (recordsBytes rs ++ tail).length := by
    rw [List.length_append]
    exact (length_le_recordsBytes_length rs).trans (Nat.le_add_right _ _)
  obtain ⟨fuel, hfuel⟩ := Nat.exists_eq_add_of_le hle
  refine ⟨fuel, ?_⟩
  rw [tlvDecode, hfuel, Nat.add_assoc]
  exact tlvLoop_recordsBytes (fuel + 1) rs hrs TlvWork.init rfl

end Sys2Proof.Machine

open Sys2Proof Sys2Proof.Machine

/-- Settles O38: after the last record no byte is left. -/
theorem decodeIsRecordByRecord : Obligations.DecodeIsRecordByRecord := by
  intro rs hrs
  obtain ⟨fuel, hdecode, hrest⟩ := tlvDecode_recordsBytes_append hrs []
  rw [List.append_nil] at hdecode hrest
  rw [hdecode, tlvLoop, hrest]
  rfl

end

section
/-! SUPPORT. The skipping of an extended frame (40_frame_sync.md R121 to R123): a run over its bytes. -/

namespace Sys2Proof.Machine

/-! ### Runs of bytes -/

theorem run_succ_of_next {s t : State} (n : Nat) (h : step s = .next t) :
    Host.Core.run core (n + 1) s = Host.Core.run core n t := by
  have hcore : core.step s = .next t := h
  simp only [Host.Core.run, hcore]

/-- A presented byte is a BYTE (R80, R95). -/
theorem decodeCommand_byteInput (b : Byte) : decodeCommand (b.setWidth 16) 0 = .byte b := by
  rw [BitVec.setWidth_eq_append (by norm_num)]
  exact (CommandForm.byte b).decode_eq

theorem step_byteInput {s : State} {b : Byte} {rest : List Input} (h : s.inputs = byteInput b :: rest) :
    step s = observe (exec (.byte b) { s with inputs := rest }) := by
  rw [step_command h, decodeCommand_byteInput]

/-- The state after a step whose effect ended in `u`: the step finished, and its outputs observed (R12, R13). -/
def State.observed (u : State) : State := { u.endStep with trace := u.trace ++ [u.endStep.out] }

theorem step_of_takeByte {s u : State} {b : Byte} {rest : List Input} (h : s.inputs = byteInput b :: rest)
    (hu : (State.beginStep { s with inputs := rest }).takeByte b = .next u) : step s = .next u.observed := by
  have hexec : exec (.byte b) { s with inputs := rest } = .next u.endStep := runStep_of_next (f := State.takeByte b) hu
  rw [step_byteInput h, hexec]
  rfl

/-! ### What skipping keeps -/

/-- The later state is as synchronized as the earlier one, with nothing discarded, reported, stored or emitted
between them. -/
structure SkipKept (s t : State) : Prop where
  sync : t.sync = s.sync
  discardCnt : t.discardCnt = s.discardCnt
  events : t.events = s.events
  fbuf : t.fbuf = s.fbuf
  emitted : t.emitted = s.emitted

theorem SkipKept.trans {s t u : State} (h : SkipKept s t) (h' : SkipKept t u) : SkipKept s u :=
  ⟨h'.sync.trans h.sync, h'.discardCnt.trans h.discardCnt, h'.events.trans h.events, h'.fbuf.trans h.fbuf,
    h'.emitted.trans h.emitted⟩

/-! ### One byte of an extended frame -/

namespace State
variable {s : State} {b : Byte}

theorem takeByte_of_xlh (hfst : s.fst = .xlh) : s.takeByte b = .next (s.extHigh b) := by
  simp [takeByte, hfst]

theorem takeByte_of_xll (hfst : s.fst = .xll) : s.takeByte b = .next (s.extLow b) := by
  simp [takeByte, hfst]

theorem takeByte_of_xsk (hfst : s.fst = .xsk) :
    s.takeByte b = .next { s with
      skipRem := s.skipRem - 1, fst := if s.skipRem - 1 = 0 then .m0 else .xsk } := by
  simp [takeByte, hfst, extSkip_eq]

end State

/-- A BYTE that moves the parser alone adds empty outputs to the observation. -/
theorem step_of_parserMove {s : State} {b : Byte} {rest : List Input} (fst : FrameState) (skipRem : BitVec 17)
    (hin : s.inputs = byteInput b :: rest)
    (hmove : (State.beginStep { s with inputs := rest }).takeByte b =
      .next { s.beginStep with fst, skipRem, inputs := rest }) :
    ∃ t, step s = .next t ∧ t.fst = fst ∧ t.skipRem = skipRem ∧ t.inputs = rest ∧ SkipKept s t :=
  ⟨_, step_of_takeByte hin hmove, rfl, rfl, rfl, rfl, rfl, rfl, rfl, by simp [State.emitted, State.observed]⟩

section
variable {s : State} {b : Byte} {rest : List Input}

/-- The high byte of the length (R121). -/
theorem step_extHigh (hfst : s.fst = .xlh) (hin : s.inputs = byteInput b :: rest) :
    ∃ t, step s = .next t ∧ t.fst = .xll ∧ t.skipRem = b.setWidth 17 <<< 8 ∧ t.inputs = rest ∧ SkipKept s t :=
  step_of_parserMove _ _ hin (State.takeByte_of_xlh (s := State.beginStep { s with inputs := rest }) hfst)

/-- The low byte of the length, and one more byte for the checksum (R122). -/
theorem step_extLow (hfst : s.fst = .xll) (hin : s.inputs = byteInput b :: rest) :
    ∃ t, step s = .next t ∧ t.fst = .xsk ∧ t.skipRem = (s.skipRem ||| b.setWidth 17) + 1 ∧ t.inputs = rest ∧
      SkipKept s t :=
  step_of_parserMove _ _ hin (State.takeByte_of_xll (s := State.beginStep { s with inputs := rest }) hfst)

/-- A skipped byte; the last one ends the extended frame (R123). -/
theorem step_extSkip (hfst : s.fst = .xsk) (hin : s.inputs = byteInput b :: rest) :
    ∃ t, step s = .next t ∧ t.fst = (if s.skipRem - 1 = 0 then .m0 else .xsk) ∧ t.skipRem = s.skipRem - 1 ∧
      t.inputs = rest ∧ SkipKept s t :=
  step_of_parserMove _ _ hin (State.takeByte_of_xsk (s := State.beginStep { s with inputs := rest }) hfst)

end

/-- The bytes left to skip are skipped, whatever they are (R123). -/
theorem run_extSkip (b : Byte) (bs : List Byte) : ∀ s : State, s.fst = .xsk → s.inputs = feed (b :: bs) →
    s.skipRem.toNat = bs.length + 1 →
    ∃ t, Host.Core.run core (bs.length + 1) s = .next t ∧ t.fst = .m0 ∧ t.skipRem = 0 ∧ SkipKept s t := by
  induction bs generalizing b with
  | nil =>
    intro s hfst hin hrem
    obtain ⟨t, hstep, htfst, htrem, -, hkept⟩ := step_extSkip hfst hin
    have hlast : s.skipRem - 1 = 0 := by rw [List.length_nil] at hrem; bv_omega
    exact ⟨t, run_succ_of_next 0 hstep, htfst.trans (if_pos hlast), htrem.trans hlast, hkept⟩
  | cons c bs ih =>
    intro s hfst hin hrem
    rw [List.length_cons] at hrem
    obtain ⟨t, hstep, htfst, htrem, htin, hkept⟩ := step_extSkip hfst hin
    have hmore : s.skipRem - 1 ≠ 0 := by bv_omega
    have hcount : t.skipRem.toNat = bs.length + 1 := by rw [htrem]; bv_omega
    obtain ⟨u, hrun, hufst, hurem, hkept'⟩ := ih c t (htfst.trans (if_neg hmore)) htin hcount
    exact ⟨u, (run_succ_of_next _ hstep).trans hrun, hufst, hurem, hkept.trans hkept'⟩

/-- The length bytes count the payload and the checksum byte (R121, R122). -/
theorem skipRem_toNat (hi lo : Byte) :
    ((hi.setWidth 17 <<< 8 ||| lo.setWidth 17) + 1 : BitVec 17).toNat = hi.toNat * 256 + lo.toNat + 1 := by
  have hpack : (hi.setWidth 17 <<< 8 ||| lo.setWidth 17 : BitVec 17) = (hi ++ lo).setWidth 17 :=
    (BitVec.setWidth_append_eq_shiftLeft_setWidth_or).symm
  rw [hpack]
  have happend : (hi ++ lo).toNat = hi.toNat * 256 + lo.toNat := by
    rw [BitVec.toNat_append, ← Nat.shiftLeft_add_eq_or_of_lt lo.isLt, Nat.shiftLeft_eq]
  simp only [BitVec.toNat_add, BitVec.toNat_setWidth, happend]
  bv_omega

end Sys2Proof.Machine

open Sys2Proof Sys2Proof.Machine

/-- Settles O59: two length bytes, then `run_extSkip` over the rest, each step keeping `SkipKept`. -/
theorem extendedFrameIsSkipped : Obligations.ExtendedFrameIsSkipped := by
  intro s hi lo bs hfst hlen stream
  obtain ⟨b, bs, rfl⟩ : ∃ b bs', bs = b :: bs' := List.exists_cons_of_ne_nil (by rintro rfl; simp at hlen)
  obtain ⟨t, hhigh, htfst, htrem, htin, hkept⟩ :=
    step_extHigh (s := { s with inputs := stream }) (b := hi) hfst rfl
  obtain ⟨u, hlow, hufst, hurem, huin, hkept'⟩ := step_extLow (b := lo) htfst htin
  have hcount : u.skipRem.toNat = bs.length + 1 := by
    rw [hurem, htrem, skipRem_toNat, ← hlen, List.length_cons]
  obtain ⟨v, hskip, hvfst, hvrem, hkept''⟩ := run_extSkip b bs u hufst huin hcount
  have hrun : Host.Core.run core stream.length { s with inputs := stream } = .next v := by
    have hlength : stream.length = bs.length + 1 + 1 + 1 := by simp [stream, feed]
    rw [hlength, run_succ_of_next _ hhigh, run_succ_of_next _ hlow, hskip]
  obtain ⟨hsync, hdiscard, hevents, hfbuf, hemitted⟩ := (hkept.trans hkept').trans hkept''
  exact ⟨v, hrun, hvfst, hsync, hvrem, hdiscard, hevents, hfbuf, hemitted⟩

end

section
/-! SUPPORT. A placed instruction (log 9): what the state that holds a frame reads, and what its next step runs. -/

namespace Sys2Proof.Machine

/-! ### The held frame -/

theorem read?_cellsFrom (bs : List Byte) : ∀ a k : Nat, Memory.read? (cellsFrom a bs) (a + k) = bs[k]? := by
  induction bs with
  | nil => exact fun _ _ => rfl
  | cons b bs ih =>
    intro a k
    rw [cellsFrom, Memory.read?_cons]
    cases k with
    | zero => simp
    | succ k => simpa [Nat.add_assoc, Nat.add_comm 1 k] using ih (a + 1) k

namespace State

/-- The state that holds a frame, when the checksum byte placed after it has been taken. -/
def heldFrame (mid : Byte) (p : List Byte) (s : State) : State := { s.holdingFrame mid p with inputs := s.inputs }

variable {mid : Byte} {p : List Byte} {s : State}

theorem heldFrame_curLen_toNat (hp : p.length ≤ Config.maxPayload) : (s.heldFrame mid p).curLen.toNat = p.length := by
  have hlen : (BitVec.ofNat 8 p.length).toNat = p.length := by
    rw [Config.maxPayload] at hp
    rw [BitVec.toNat_ofNat]
    omega
  exact hlen

theorem heldFrame_fidx_toNat (hp : p.length ≤ Config.maxPayload) : (s.heldFrame mid p).fidx.toNat = 4 + p.length := by
  have hfidx : (4 + (BitVec.ofNat 8 p.length).setWidth 9 : BitVec 9).toNat = 4 + p.length := by
    rw [Config.maxPayload] at hp
    bv_omega
  exact hfidx

/-- Each byte of the held frame is read back. -/
theorem heldFrame_byteAt (hp : p.length ≤ Config.maxPayload) {a : Nat} {b : Byte}
    (hb : (frameBody mid p)[a]? = some b) : (s.heldFrame mid p).byteAt a = b := by
  have hlt : a < (frameBody mid p).length := (List.getElem?_eq_some_iff.1 hb).1
  have hlength : (frameBody mid p).length = 4 + p.length := by simp [frameBody]; omega
  have hread : Memory.read? (cellsFrom 0 (frameBody mid p)) a = some b := by
    simpa [hb] using read?_cellsFrom (frameBody mid p) 0 a
  exact byteAt_of_read (by rw [heldFrame_fidx_toNat hp]; omega) hread

theorem heldFrame_byteAt_two (hp : p.length ≤ Config.maxPayload) : (s.heldFrame mid p).byteAt 2 = mid :=
  heldFrame_byteAt hp rfl

theorem heldFrame_payload (hp : p.length ≤ Config.maxPayload) : (s.heldFrame mid p).payload = p := by
  refine List.ext_getElem (by rw [payload_length, heldFrame_curLen_toNat hp]) fun j _ hj => ?_
  have hbyte : (frameBody mid p)[4 + j]? = some p[j] := by
    rw [Nat.add_comm]
    exact List.getElem?_eq_getElem hj
  simpa [payload] using heldFrame_byteAt hp hbyte

theorem heldFrame_payloadFits (hp : p.length ≤ Config.maxPayload) : (s.heldFrame mid p).PayloadFits := by
  rw [PayloadFits, heldFrame_curLen_toNat hp]
  exact Nat.add_le_add_left hp 4

end State

/-! ### The next step -/

/-- A valid commit completes, and emits the frame first (R144, R145). -/
theorem exec_decodeMid_next {s : State} (mid : Byte) (hfits : s.PayloadFits) :
    ∃ t, exec (decodeMid mid) s = .next t ∧
      t.out.emitted.head? = some (.frameOut mid s.curLen s.payload (ckExpected s.acc s.cksel)) := by
  by_cases hmid : mid = Config.measMid
  · rw [decodeMid, if_pos hmid, exec_frameMeas hfits, State.frameAccepted_beginStep, hmid]
    exact ⟨_, rfl, by simp [State.closeFrame]⟩
  · rw [decodeMid, if_neg hmid, exec_frameOther hfits, State.frameAccepted_beginStep]
    exact ⟨_, rfl, rfl⟩

/-- The step at a held frame is the commit of its MID's row (R110, R120). -/
theorem step_holdingFrame {mid : Byte} {p : List Byte} (s : State) (hp : p.length ≤ Config.maxPayload) :
    step (s.holdingFrame mid p) = observe (exec (decodeMid mid) (s.heldFrame mid p)) := by
  have hbyte : exec (.byte _) (s.heldFrame mid p) =
      exec (decodeMid ((s.heldFrame mid p).byteAt 2)) (s.heldFrame mid p) :=
    exec_byte_of_match rfl rfl
  rw [State.heldFrame_byteAt_two hp] at hbyte
  exact (step_byteInput rfl).trans (congrArg observe hbyte)

/-- A payload that is one record is decoded by that record's one pass (R91, R161). -/
theorem tlvDecode_recordBytes (id : Half) {v : List Byte} (hv : v.length ≤ 255) :
    tlvDecode (recordBytes id v) = TlvWork.init.pass id v := by
  simpa [recordsBytes] using decodeIsRecordByRecord [(id, v)] (by simpa using hv)

end Sys2Proof.Machine

open Sys2Proof Sys2Proof.Machine

/-- Settles O60: a command is taken as it stands, and a presented byte runs the LEN or the MID row of the state it is
placed in. -/
theorem placedInstructionRunsNext : Obligations.PlacedInstructionRunsNext := by
  refine ⟨fun s cmd wdata t hexec => ?_, fun s b => ?_, fun s mid => ?_, fun s id v hv => ?_⟩
  · exact (step_command rfl).trans (congrArg observe hexec)
  · have hexec : exec (.byte b) { s.awaitingLen b with inputs := s.inputs } =
      exec (decodeLen b) { s.awaitingLen b with inputs := s.inputs } := exec_byte_of_len rfl b
    rw [exec_decodeLen] at hexec ⊢
    exact ⟨_, rfl, (step_byteInput rfl).trans (congrArg observe hexec)⟩
  · have hp : ([] : List Byte).length ≤ Config.maxPayload := Nat.zero_le _
    obtain ⟨t, hexec, hhead⟩ := exec_decodeMid_next mid (State.heldFrame_payloadFits (s := s) hp)
    have hacc : (s.heldFrame mid []).acc = mid := by simp [State.heldFrame, State.holdingFrame, byteSum]
    rw [State.heldFrame_payload hp, hacc] at hhead
    exact ⟨t, hexec, (step_holdingFrame s hp).trans (congrArg observe hexec), hhead⟩
  · have hp : (recordBytes id v).length ≤ Config.maxPayload := by
      rw [recordBytes_length, Config.maxPayload]
      omega
    have hlen : (s.heldFrame Config.measMid (recordBytes id v)).curLen ≠ 255 :=
      State.payloadFits_iff.1 (State.heldFrame_payloadFits hp)
    have hexec := measurementFrameCommitsRecord _ hlen
    rw [State.heldFrame_payload hp, tlvDecode_recordBytes id (hv.trans (by norm_num))] at hexec
    exact ⟨_, (step_holdingFrame s hp).trans (congrArg observe hexec), rfl, rfl, rfl, rfl⟩

end

section
/-! SUPPORT. The synchronizer byte by byte (40_frame_sync.md R111 to R123): the whole next state, by state of `fst`. -/

namespace Sys2Proof.Machine

/-- A BYTE whose state rule ends in `u` finishes its step there (R110). -/
theorem exec_byte_of_takeByte {s u : State} {b : Byte} (h : s.beginStep.takeByte b = .next u) :
    exec (.byte b) s = .next u.endStep :=
  runStep_of_next (f := State.takeByte b) h

namespace State
variable {s : State} {b : Byte}

/-! ### The state rules by `fst` and by what the byte is (R110) -/

theorem takeByte_firstMarker (hfst : s.fst = .m0) : s.takeByte Config.marker0 = .next s.firstMarker := by
  simp [takeByte, hfst]

theorem takeByte_noMarker (hfst : s.fst = .m0) (hb : b ≠ Config.marker0) : s.takeByte b = .next s.noMarker := by
  simp [takeByte, hfst, hb]

theorem takeByte_secondMarker (hfst : s.fst = .m1) : s.takeByte Config.marker1 = .next s.secondMarker := by
  simp [takeByte, hfst]

theorem takeByte_brokenMarker (hfst : s.fst = .m1) (hb : b ≠ Config.marker1) :
    s.takeByte b = .next (s.brokenMarker b) := by
  simp [takeByte, hfst, hb]

theorem takeByte_of_mid (hfst : s.fst = .mid) : s.takeByte b = .next (s.midByte b) := by
  simp [takeByte, hfst]

/-! ### The bytes that are no marker -/

/-- A byte that begins no marker: the whole next state, with both bits of `EVENTS` at once (R112, R115). -/
theorem noMarker_eq (s : State) :
    s.noMarker = { s with
      sync := false
      synclossCnt := if s.sync then s.synclossCnt + 1 else s.synclossCnt
      discardCnt := s.discardCnt + 1
      events := s.events ||| (if s.sync then 0xC else 0x8)
      raised := .discard :: ((if s.sync then [.syncLost] else []) ++ s.raised) } := by
  have hbits : s.events ||| EventCode.syncLost.bit ||| EventCode.discard.bit = s.events ||| 0xC := BitVec.or_assoc ..
  rw [noMarker, loseSync_eq]
  cases hsync : s.sync
  · rfl
  · rw [if_pos rfl, if_pos rfl, if_pos rfl, if_pos rfl, ← hbits]
    rfl

/-- A marker broken at its second byte: as `noMarker`, and then the byte begins a new marker or is discarded as well;
the second discard of a step sets no further bit of `EVENTS` (R114, R231). -/
theorem brokenMarker_eq (b : Byte) (s : State) :
    s.brokenMarker b = { s.noMarker with
      discardCnt := s.discardCnt + (if b = Config.marker0 then 1 else 2)
      raised := (if b = Config.marker0 then [] else [.discard]) ++ s.noMarker.raised
      fbuf := if b = Config.marker0 then s.fbuf.write 0 Config.marker0 else s.fbuf
      fidx := if b = Config.marker0 then 1 else 0
      fst := if b = Config.marker0 then .m1 else .m0 } := by
  have hcount : s.loseSync.discardCnt = s.discardCnt := by rw [loseSync_eq]
  have hfbuf : s.loseSync.fbuf = s.fbuf := by rw [loseSync_eq]
  unfold brokenMarker noMarker
  split
  · simp [firstMarker, storeByte, hcount, hfbuf]
  · simp [discard, raise, hcount, hfbuf, BitVec.or_assoc, BitVec.add_assoc]

/-! ### The payload -/

/-- `FIDX` reaches the checksum's place: the 9-bit comparison is one of positions (R119). -/
theorem last_payloadByte_iff (hroom : s.fidx.toNat < 258) :
    s.fidx + 1 = 4 + s.curLen.setWidth 9 ↔ s.fidx.toNat + 1 = 4 + s.curLen.toNat := by
  have hnext : (s.fidx + 1).toNat = s.fidx.toNat + 1 := by bv_omega
  have hend : (4 + s.curLen.setWidth 9).toNat = 4 + s.curLen.toNat := by bv_omega
  rw [← hnext, ← hend]
  exact ⟨congrArg BitVec.toNat, BitVec.eq_of_toNat_eq⟩

end State

end Sys2Proof.Machine

open Sys2Proof Sys2Proof.Machine

/-- Settles O18: `firstMarker`, and `noMarker` by the value of `SYNC`. -/
theorem bytesInFirstMarkerState : Obligations.BytesInFirstMarkerState := by
  intro b s hfst
  have other (hb : b ≠ 0xFA) : exec (.byte b) s = .next s.beginStep.noMarker.endStep :=
    exec_byte_of_takeByte (State.takeByte_noMarker (s := s.beginStep) hfst hb)
  refine ⟨exec_byte_of_takeByte (State.takeByte_firstMarker (s := s.beginStep) hfst), fun hb hsync => ?_,
    fun hb hsync => ?_⟩
  · rw [other hb, State.noMarker_eq, State.beginStep_sync, hsync]
    rfl
  · rw [other hb, State.noMarker_eq, State.beginStep_sync, hsync]
    rfl

/-- Settles O19: `secondMarker` by the value of `SYNC`, and `brokenMarker`. -/
theorem bytesInSecondMarkerState : Obligations.BytesInSecondMarkerState := by
  intro b s hfst
  have marker : exec (.byte 0xFF) s = .next s.beginStep.secondMarker.endStep :=
    exec_byte_of_takeByte (State.takeByte_secondMarker (s := s.beginStep) hfst)
  refine ⟨fun hsync => ?_, fun hsync => ?_, fun hb => ?_⟩
  · rw [marker, State.secondMarker_eq, State.beginStep_sync, hsync]
    rfl
  · rw [marker, State.secondMarker_eq, State.beginStep_sync, hsync]
    rfl
  · rw [exec_byte_of_takeByte (State.takeByte_brokenMarker (s := s.beginStep) hfst hb), State.brokenMarker_eq,
      State.noMarker_eq]
    by_cases hb0 : b = Config.marker0
    · subst hb0
      cases hsync : s.sync <;> simp only [State.beginStep_sync, hsync] <;> rfl
    · have hb0' : b ≠ 0xFA := hb0
      simp only [hb0, hb0', if_false]
      cases hsync : s.sync <;> simp only [State.beginStep_sync, hsync] <;> rfl

/-- Settles O22: `midByte`, and `payloadByte` with its end as a comparison of positions. -/
theorem messageIdAndPayloadBytes : Obligations.MessageIdAndPayloadBytes := by
  intro b s
  refine ⟨fun hfst => exec_byte_of_takeByte (State.takeByte_of_mid (s := s.beginStep) hfst), fun hfst hroom => ?_⟩
  rw [exec_byte_of_takeByte ((State.takeByte_of_pay (s := s.beginStep) hfst).trans (State.payloadByte_of_lt hroom))]
  simp only [State.last_payloadByte_iff (s := s.beginStep) hroom]
  rw [State.beginStep_fst, hfst]
  rfl

/-- Settles O23: `extHigh`, `extLow` and `extSkip`. -/
theorem extendedLengthStates : Obligations.ExtendedLengthStates := by
  intro b s
  refine ⟨fun hfst => ?_, fun hfst => ?_, fun hfst => ?_⟩
  · have hhigh : b.setWidth 17 <<< 8 = BitVec.ofNat 17 (b.toNat * 256) := by
      simp [BitVec.toNat_eq, Nat.shiftLeft_eq]
    rw [exec_byte_of_takeByte (State.takeByte_of_xlh (s := s.beginStep) hfst), ← hhigh]
    rfl
  · rw [exec_byte_of_takeByte (State.takeByte_of_xll (s := s.beginStep) hfst), BitVec.ofNat_toNat]
    rfl
  · have hlast : s.skipRem - 1 = 0 ↔ s.skipRem = 1 := by bv_omega
    rw [exec_byte_of_takeByte (State.takeByte_of_xsk (s := s.beginStep) hfst), State.beginStep_skipRem]
    simp only [hlast]
    rfl

end

section
/-! SUPPORT. The loss of synchronization (40_frame_sync.md R127), and that nothing stops the block (R129,
60_exceptions.md R235). -/

namespace Sys2Proof.Machine

/-! ### What clears `SYNC` (R22, R127) -/

/-- A BYTE clears `SYNC` at a marker mismatch alone. -/
theorem ByteMove.mismatch_or_sync {b : Byte} {s t : State} (hmove : ByteMove b s t) (hsync : s.sync = true) :
    (s.fst = .m0 ∧ b ≠ Config.marker0) ∨ (s.fst = .m1 ∧ b ≠ Config.marker1) ∨ t.sync = true := by
  cases hmove with
  | noMarker hfst hb => exact .inl ⟨hfst, hb⟩
  | brokenMarker hfst hb => exact .inr (.inl ⟨hfst, hb⟩)
  | secondMarker => right; right; rw [State.secondMarker_eq]
  | acceptMeasurement => exact .inr (.inr ((State.recordCommit_sync _ _).trans hsync))
  | extSkip => right; right; rw [State.extSkip_eq]; exact hsync
  | firstMarker | midByte | extendedLen | standardLen | payloadByte | rejectFrame | acceptOther | extHigh | extLow =>
    exact .inr (.inr hsync)

/-! ### Every step completes (R110, R119, R235) -/

/-- A payload byte has a position in `FBUF`, for the payload ends there (R117, R119). -/
theorem State.StreamOk.payload_room {s : State} (h : s.StreamOk) (hfst : s.fst = .pay) :
    s.fidx.toNat < Config.fbufSize := by
  obtain ⟨-, -, hhigh, hmax, -⟩ := (streamOk_pay hfst).1 h
  simp only [Config.maxPayload, Config.fbufSize] at hmax ⊢
  omega

/-- A commit finds its payload in `FBUF` (R117). -/
theorem State.StreamOk.commit_fits {s : State} (h : s.StreamOk) (hfst : s.fst = .cks) : s.PayloadFits := by
  obtain ⟨-, -, hmax, -⟩ := (streamOk_cks hfst).1 h
  exact Nat.add_le_add_left hmax 4

theorem State.StreamOk.takeByte_completes {s : State} (h : s.StreamOk) (b : Byte) : ∃ t, s.takeByte b = .next t :=
  State.takeByte_completes h.payload_room fun hfst => .inl (h.commit_fits hfst)

/-- Every host command completes: a BYTE inside `FBUF`, and any other command always. -/
theorem exec_decodeCommand_completes {s : State} (h : s.StreamOk) (cmd : Half) (wdata : Word) :
    ∃ t, exec (decodeCommand cmd wdata) s = .next t := by
  obtain ⟨b, hd⟩ | ⟨i, hd⟩ | ⟨i, hd⟩ | ⟨x, hd⟩ | ⟨x, hd⟩ | ⟨x, hd⟩ | ⟨x, hd⟩ := decodeCommand_cases cmd wdata <;> rw [hd]
  · obtain ⟨u, hu⟩ := State.StreamOk.takeByte_completes (s := s.beginStep) h b
    exact ⟨_, exec_byte_of_takeByte hu⟩
  all_goals exact ⟨_, rfl⟩

theorem State.Inv.completes {s : State} (h : s.Inv) : s.Completes := by
  obtain ⟨hstream, -, -⟩ := State.inv_iff.1 h
  cases hin : s.inputs with
  | nil => exact ⟨s, by simp [step, hin]⟩
  | cons i rest =>
    cases i with
    | rst => exact ⟨s.hardReset rest, by simp [step, hin]⟩
    | command cmd wdata =>
      obtain ⟨t, ht⟩ := exec_decodeCommand_completes (s := { s with inputs := rest }) hstream cmd wdata
      exact ⟨_, (step_command hin).trans (congrArg observe ht)⟩

/-! ### Every run from a state that meets the invariant -/

/-- A run of any length from a state that meets the invariant completes, in a state that meets it. -/
theorem run_completes (n : Nat) : ∀ s : State, s.Inv → ∃ t, Host.Core.run core n s = .next t ∧ State.Inv t := by
  induction n with
  | zero => exact fun s h => ⟨s, rfl, h⟩
  | succ n ih =>
    intro s h
    obtain ⟨t, ht⟩ := h.completes
    obtain ⟨u, hu, hinv⟩ := ih t (everyStepKeepsInvariant s t h ht)
    exact ⟨u, (run_succ_of_next n ht).trans hu, hinv⟩

end Sys2Proof.Machine

open Sys2Proof Sys2Proof.Machine

/-- Settles O46: of a host command's effects, a marker mismatch and a soft reset are all that clears `SYNC`. -/
theorem onlyTheseClearSync : Obligations.OnlyTheseClearSync := by
  intro s t hstep hsync hlost
  obtain ⟨-, rfl⟩ | ⟨rest, hin, -⟩ | ⟨cmd, wdata, rest, u, hin, hexec, rfl⟩ := step_next_cases hstep
  · simp [hsync] at hlost
  · exact .inr (.inr ⟨rest, hin⟩)
  obtain ⟨v, rfl, hv⟩ := exec_decodeCommand_next hexec
  have hno : ¬ v.sync = true := by simpa using hlost
  have hkept : ¬ StreamKept (State.beginStep { s with inputs := rest }) v := fun kept => hno (kept.sync.trans hsync)
  obtain ⟨b, hd, hmove⟩ | ⟨i, -, rfl⟩ | ⟨i, hd, rfl⟩ | rfl := hv
  · obtain hm0 | hm1 | hyes := hmove.mismatch_or_sync hsync
    · exact .inl ⟨b, wdata, cmd, rest, hin, hd, .inl hm0⟩
    · exact .inl ⟨b, wdata, cmd, rest, hin, hd, .inr hm1⟩
    · exact absurd hyes hno
  · exact absurd (State.readReg_streamKept _ _) hkept
  · obtain ⟨hi, hbit, -⟩ | kept := State.writeReg_cases i.toNat wdata (State.beginStep { s with inputs := rest })
    · obtain rfl : i = 0 := BitVec.eq_of_toNat_eq hi
      exact .inr (.inl ⟨wdata, cmd, rest, hin, hd, hbit⟩)
    · exact absurd kept hkept
  · exact absurd (State.badCommand_streamKept _) hkept

/-- Settles O55. -/
theorem noStepStops : Obligations.NoStepStops := fun _ h => h.completes

/-- Settles O56: the reset state with inputs presented meets the invariant. -/
theorem noRunStops : Obligations.NoRunStops := by
  intro inputs n
  obtain ⟨t, ht, -⟩ := run_completes n _ (State.reset_inv.with_inputs_trace inputs [])
  exact ⟨t, ht⟩

end

section
/-! SUPPORT. The pending inputs (00_scope.md R12, 20_memory.md R70; log 1): a step takes the first and does not look at
the others, so a run does not depend on when they are presented (40_frame_sync.md R125). -/

namespace Sys2Proof.Machine

/-- A step's answer with its next state changed. -/
def mapNext (f : State → State) : Result → Result
  | .next s => .next (f s)
  | .fault r => .fault r
  | .refused r => .refused r

/-- The state with these pending inputs. -/
def State.withInputs (is : List Input) (s : State) : State := { s with inputs := is }

/-! ### No operation looks at the pending inputs -/

namespace State
variable (is : List Input)

theorem recordCommit_withInputs (p : List Byte) (s : State) :
    (s.withInputs is).recordCommit p = (s.recordCommit p).withInputs is := by
  simp only [recordCommit_eq]
  rfl

/-- A valid commit: the accepted frame, with the record of a measurement frame, closed (R144). -/
theorem acceptFrame_of_fits {s : State} {mid ck : Byte} {m : Bool} (hfits : s.PayloadFits) :
    s.acceptFrame mid ck m =
      .next (if m then (s.frameAccepted mid ck).recordCommit s.payload else s.frameAccepted mid ck).closeFrame :=
  acceptFrame_next_iff.2 ⟨hfits, rfl⟩

theorem acceptFrame_withInputs (mid ck : Byte) (m : Bool) (s : State) :
    (s.withInputs is).acceptFrame mid ck m = mapNext (withInputs is) (s.acceptFrame mid ck m) := by
  by_cases hfits : s.PayloadFits
  · rw [acceptFrame_of_fits hfits, acceptFrame_of_fits (s := s.withInputs is) hfits]
    cases m
    · rfl
    · have hrecord := recordCommit_withInputs is s.payload (s.frameAccepted mid ck)
      exact congrArg (fun u : State => Host.Outcome.next u.closeFrame) hrecord
  · rw [acceptFrame_of_not_fits hfits, acceptFrame_of_not_fits (s := s.withInputs is) hfits]
    rfl

theorem commit_withInputs (ck : Byte) (s : State) :
    (s.withInputs is).commit ck = mapNext (withInputs is) (s.commit ck) := by
  by_cases hck : ck = ckExpected s.acc s.cksel
  · rw [commit_of_match hck, commit_of_match (s := s.withInputs is) hck]
    exact acceptFrame_withInputs is _ _ _ s
  · rw [commit_of_mismatch hck, commit_of_mismatch (s := s.withInputs is) hck]
    rfl

theorem payloadByte_withInputs (b : Byte) (s : State) :
    (s.withInputs is).payloadByte b = mapNext (withInputs is) (s.payloadByte b) := by
  by_cases hroom : s.fidx.toNat < Config.fbufSize
  · rw [payloadByte_of_lt hroom, payloadByte_of_lt (s := s.withInputs is) hroom]
    rfl
  · rw [payloadByte_of_ge (not_lt.1 hroom), payloadByte_of_ge (s := s.withInputs is) (not_lt.1 hroom)]
    rfl

theorem takeByte_withInputs (b : Byte) (s : State) :
    (s.withInputs is).takeByte b = mapNext (withInputs is) (s.takeByte b) := by
  have hsame : (s.withInputs is).fst = s.fst := rfl
  cases hfst : s.fst <;> simp only [takeByte, hsame, hfst]
  case pay => exact payloadByte_withInputs is b s
  case cks => exact commit_withInputs is b s
  case m0 =>
    split
    · rfl
    · rw [noMarker_eq, noMarker_eq]
      rfl
  case m1 =>
    split
    · rw [secondMarker_eq, secondMarker_eq]
      rfl
    · rw [brokenMarker_eq, brokenMarker_eq, noMarker_eq, noMarker_eq]
      rfl
  case len => split <;> rfl
  case xsk =>
    rw [extSkip_eq, extSkip_eq]
    rfl
  all_goals rfl

theorem regValue_withInputs (i : Nat) (s : State) : (s.withInputs is).regValue i = s.regValue i := by
  unfold regValue
  split <;> rfl

theorem readReg_withInputs (i : Nat) (s : State) :
    (s.withInputs is).readReg i = (s.readReg i).withInputs is := by
  unfold readReg
  split
  · rw [regValue_withInputs]
    rfl
  · rfl

theorem writeReg_withInputs (i : Nat) (v : Word) (s : State) :
    (s.withInputs is).writeReg i v = (s.writeReg i v).withInputs is := by
  unfold writeReg
  split
  case h_1 => split <;> rfl
  case h_11 => split <;> rfl
  all_goals rfl

end State

/-! ### A step and a run -/

/-- A step around an effect that does not look at the pending inputs does not either. -/
theorem runStep_withInputs {f : State → Result} (is : List Input)
    (hf : ∀ s : State, f (s.withInputs is) = mapNext (State.withInputs is) (f s)) (s : State) :
    runStep f (s.withInputs is) = mapNext (State.withInputs is) (runStep f s) := by
  have hbegin : f (s.withInputs is).beginStep = mapNext (State.withInputs is) (f s.beginStep) := hf s.beginStep
  rw [runStep, runStep, hbegin]
  cases f s.beginStep <;> rfl

theorem runStep_total_withInputs {g : State → State} (is : List Input)
    (hg : ∀ s : State, g (s.withInputs is) = (g s).withInputs is) (s : State) :
    runStep (fun u => .next (g u)) (s.withInputs is) =
      mapNext (State.withInputs is) (runStep (fun u => .next (g u)) s) :=
  runStep_withInputs is (fun u => by rw [hg u]; rfl) s

theorem exec_withInputs (is : List Input) (cmd : Half) (wdata : Word) (s : State) :
    exec (decodeCommand cmd wdata) (s.withInputs is) =
      mapNext (State.withInputs is) (exec (decodeCommand cmd wdata) s) := by
  obtain ⟨b, hd⟩ | ⟨i, hd⟩ | ⟨i, hd⟩ | ⟨x, hd⟩ | ⟨x, hd⟩ | ⟨x, hd⟩ | ⟨x, hd⟩ := decodeCommand_cases cmd wdata <;> rw [hd]
  · exact runStep_withInputs is (State.takeByte_withInputs is b) s
  · exact runStep_total_withInputs is (State.readReg_withInputs is i.toNat) s
  · exact runStep_total_withInputs is (State.writeReg_withInputs is i.toNat wdata) s
  all_goals rfl

/-- A step takes the first of the pending inputs, whatever stands behind it. -/
theorem step_withInputs_cons (i : Input) (is : List Input) (s : State) :
    step (s.withInputs (i :: is)) = mapNext (State.withInputs is) (step (s.withInputs [i])) := by
  cases i with
  | rst => rfl
  | command cmd wdata =>
    have hexec := exec_withInputs is cmd wdata (s.withInputs [])
    rw [step_command (s := s.withInputs (.command cmd wdata :: is)) rfl,
      step_command (s := s.withInputs [.command cmd wdata]) rfl]
    refine (congrArg observe hexec).trans ?_
    change observe (mapNext _ (exec _ (s.withInputs []))) = mapNext _ (observe (exec _ (s.withInputs [])))
    cases exec (decodeCommand cmd wdata) (s.withInputs []) <;> rfl

/-- A run in two parts. -/
theorem run_add (n : Nat) : ∀ (m : Nat) (s : State), Host.Core.run core (m + n) s =
    match Host.Core.run core m s with
    | .next t => Host.Core.run core n t
    | .fault r => .fault r
    | .refused r => .refused r := by
  intro m
  induction m with
  | zero => intro s; rw [Nat.zero_add]; rfl
  | succ m ih =>
    intro s
    rw [Nat.add_right_comm]
    simp only [Host.Core.run]
    cases core.step s with
    | next t => exact ih t
    | fault r => rfl
    | refused r => rfl

/-- A run over the first pending inputs leaves the others pending. -/
theorem run_withInputs (js : List Input) (is : List Input) : ∀ s : State,
    Host.Core.run core is.length (s.withInputs (is ++ js)) =
      mapNext (State.withInputs js) (Host.Core.run core is.length (s.withInputs is)) := by
  induction is with
  | nil => exact fun _ => rfl
  | cons i is ih =>
    intro s
    have hmore : core.step (s.withInputs (i :: is ++ js)) = _ := step_withInputs_cons i (is ++ js) s
    have hfew : core.step (s.withInputs (i :: is)) = _ := step_withInputs_cons i is s
    simp only [List.length_cons, Host.Core.run, hmore, hfew]
    cases step (s.withInputs [i]) with
    | next t => exact ih t
    | fault r => rfl
    | refused r => rfl

/-- A run over all the pending inputs leaves none. -/
theorem run_inputs_eq_nil {is : List Input} {s t : State}
    (h : Host.Core.run core is.length (s.withInputs is) = .next t) : t.inputs = [] := by
  have hnone := run_withInputs [] is s
  rw [List.append_nil, h] at hnone
  exact congrArg State.inputs (Host.Outcome.next.inj hnone)

end Sys2Proof.Machine

open Sys2Proof Sys2Proof.Machine

/-- Settles O57: the first part of the run leaves the second part's inputs pending, presented before it or after. -/
theorem chunkingDoesNotMatter : Obligations.ChunkingDoesNotMatter := by
  intro s is js hidle
  have hpresent (ks : List Input) : s.presenting ks = s.withInputs ks := by
    simp only [State.presenting, State.withInputs, hidle, List.nil_append]
  rw [hpresent, hpresent, run_add, run_withInputs]
  cases hrun : Host.Core.run core is.length (s.withInputs is) with
  | next t =>
    have hnext : State.presenting t js = State.withInputs js t := by
      simp only [State.presenting, State.withInputs, run_inputs_eq_nil hrun, List.nil_append]
    exact congrArg (Host.Core.run core js.length) hnext.symm
  | fault r => rfl
  | refused r => rfl

end

section
/-! SUPPORT. Resynchronization (40_frame_sync.md R126): a run over garbage that holds no marker, and over the frame
that follows it. -/

namespace Sys2Proof.Machine

/-! ### Runs over bytes -/

/-- Presented with these bytes, whatever is presented after them, the block goes from `s` to `t`; the pending inputs of
`s` and `t` themselves play no part. -/
def Fed (bs : List Byte) (s t : State) : Prop :=
  ∀ is : List Input, Host.Core.run core bs.length (s.withInputs (feed bs ++ is)) = .next (t.withInputs is)

namespace Fed
variable {bs cs : List Byte} {s t u : State}

theorem nil (s : State) : Fed [] s s := fun _ => rfl

theorem byte {b : Byte} (h : s.beginStep.takeByte b = .next u) : Fed [b] s u.observed := by
  intro is
  have htake : (s.beginStep.withInputs is).takeByte b = .next (u.withInputs is) := by
    rw [State.takeByte_withInputs, h]
    rfl
  exact run_succ_of_next 0 (step_of_takeByte (s := s.withInputs (byteInput b :: is)) rfl htake)

theorem append (h : Fed bs s t) (h' : Fed cs t u) : Fed (bs ++ cs) s u := by
  intro is
  rw [feed, List.map_append, List.append_assoc, List.length_append, run_add]
  have hfirst : Host.Core.run core bs.length (s.withInputs (bs.map byteInput ++ (cs.map byteInput ++ is))) = _ :=
    h (cs.map byteInput ++ is)
  rw [hfirst]
  exact h' is

/-- With nothing presented after the bytes. -/
theorem run (h : Fed bs s t) :
    Host.Core.run core (feed bs).length (s.withInputs (feed bs)) = .next (t.withInputs []) := by
  have hrun := h []
  rwa [List.append_nil, ← List.length_map (f := byteInput)] at hrun

theorem inv (h : Fed bs s t) (hs : s.Inv) : t.Inv := by
  obtain ⟨u, hrun, hu⟩ := run_completes (feed bs).length _ (hs.with_inputs_trace (feed bs) s.trace)
  obtain rfl : t.withInputs [] = u := Host.Outcome.next.inj (h.run.symm.trans hrun)
  exact hu.with_inputs_trace t.inputs t.trace

end Fed

/-- A finished step adds what it emitted to what was emitted before it (R13). -/
theorem State.observed_emitted {s u : State} {b : Byte} (h : s.beginStep.takeByte b = .next u) :
    u.observed.emitted = s.emitted ++ u.out.emitted := by
  have htrace : u.trace = s.trace := takeByte_keeps_trace (s := s.beginStep) h
  simp [State.emitted, State.observed, htrace]

/-! ### Garbage (R112, R114) -/

theorem NoMarker.of_append {g h : List Byte} (hno : NoMarker (g ++ h)) : NoMarker g :=
  fun hin => hno (hin.trans ⟨[], h, by simp⟩)

/-- A first marker byte after garbage without a marker makes none. -/
theorem NoMarker.append_marker0 {g : List Byte} (hno : NoMarker g) : NoMarker (g ++ [Config.marker0]) := by
  rintro ⟨l, r, hpair⟩
  obtain rfl | ⟨r, b, rfl⟩ := r.eq_nil_or_concat'
  · have hlast := congrArg List.getLast? hpair
    simp [Config.marker0, Config.marker1] at hlast
  · rw [← List.append_assoc] at hpair
    exact hno ⟨l, r, (List.append_inj' hpair rfl).1⟩

/-- After a first marker byte the next byte of such garbage is no second one. -/
theorem NoMarker.ne_marker1 {g : List Byte} {b : Byte} (hno : NoMarker (g ++ [b]))
    (hlast : g.getLast? = some Config.marker0) : b ≠ Config.marker1 := by
  obtain ⟨l, rfl⟩ := List.getLast?_eq_some_iff.1 hlast
  rintro rfl
  exact hno ⟨l, [], by simp⟩

/-- The block hunts after the garbage `g`: all of `g` is discarded, but for a last byte `0xFA`, which is held as a
possible first marker byte (R111, R112, R114). -/
structure Hunting (k : Bool) (g : List Byte) (s : State) : Prop where
  fst : s.fst = if g.getLast? = some Config.marker0 then .m1 else .m0
  sync : s.sync = false
  cksel : s.cksel = k
  resyncCnt : s.resyncCnt = 0
  emitted : s.emitted = []
  discardCnt : s.discardCnt + (if g.getLast? = some Config.marker0 then 1 else 0) = BitVec.ofNat 32 g.length

section
variable {k : Bool} {g : List Byte} {s : State} {b : Byte}

/-- A move that discards the garbage so far, and holds the byte as a first marker byte or discards it as well. -/
theorem Hunting.move {u : State} (h : Hunting k g s) (htake : s.beginStep.takeByte b = .next u)
    (hfst : u.fst = if b = Config.marker0 then .m1 else .m0) (hsync : u.sync = false) (hcksel : u.cksel = s.cksel)
    (hresync : u.resyncCnt = s.resyncCnt) (hout : u.out.emitted = [])
    (hdiscard : u.discardCnt + (if b = Config.marker0 then 1 else 0) = BitVec.ofNat 32 g.length + 1) :
    ∃ t, Fed [b] s t ∧ Hunting k (g ++ [b]) t := by
  have hheld : (g ++ [b]).getLast? = some Config.marker0 ↔ b = Config.marker0 := by simp
  have hlength : BitVec.ofNat 32 (g ++ [b]).length = BitVec.ofNat 32 g.length + 1 := by simp [BitVec.ofNat_add]
  refine ⟨u.observed, Fed.byte htake, ?_, hsync, hcksel.trans h.cksel, hresync.trans h.resyncCnt, ?_, ?_⟩
  · exact hfst.trans (by simp only [hheld])
  · rw [State.observed_emitted htake, h.emitted, hout, List.append_nil]
  · simp only [hheld, hlength]
    exact hdiscard

/-- A byte of garbage makes no marker with the bytes before it (R111, R112, R114). -/
theorem Hunting.byte (h : Hunting k g s) (hno : NoMarker (g ++ [b])) : ∃ t, Fed [b] s t ∧ Hunting k (g ++ [b]) t := by
  have hfst := h.fst
  have hdiscard := h.discardCnt
  by_cases hlast : g.getLast? = some Config.marker0
  · rw [if_pos hlast] at hfst hdiscard
    have htake := State.takeByte_brokenMarker (s := s.beginStep) hfst (hno.ne_marker1 hlast)
    rw [State.brokenMarker_eq, State.noMarker_eq] at htake
    refine h.move htake rfl rfl rfl rfl rfl ?_
    rw [← hdiscard, State.beginStep_discardCnt, BitVec.add_assoc, BitVec.add_assoc]
    by_cases hb : b = Config.marker0
    · rw [if_pos hb, if_pos hb]
    · rw [if_neg hb, if_neg hb]
      rfl
  · rw [if_neg hlast] at hfst hdiscard
    by_cases hb : b = Config.marker0
    · subst hb
      refine h.move (State.takeByte_firstMarker (s := s.beginStep) hfst) rfl h.sync rfl rfl rfl ?_
      rw [← hdiscard, if_pos rfl]
      exact congrArg (· + 1) (BitVec.add_zero _).symm
    · have htake := State.takeByte_noMarker (s := s.beginStep) hfst hb
      rw [State.noMarker_eq] at htake
      refine h.move htake (hfst.trans (if_neg hb).symm) rfl rfl rfl rfl ?_
      rw [← hdiscard, if_neg hb]
      exact (BitVec.add_zero _).trans (congrArg (· + 1) (BitVec.add_zero _).symm)

end

/-- Garbage that holds no marker is hunted through (R126). -/
theorem hunting_of_noMarker {k : Bool} {s : State} (h : Hunting k [] s) (g : List Byte) (hno : NoMarker g) :
    ∃ t, Fed g s t ∧ Hunting k g t := by
  induction g using List.reverseRecOn with
  | nil => exact ⟨s, Fed.nil s, h⟩
  | append_singleton g b ih =>
    obtain ⟨t, hfed, ht⟩ := ih hno.of_append
    obtain ⟨u, hfed', hu⟩ := ht.byte hno
    exact ⟨u, hfed.append hfed', hu⟩

/-! ### The frame (R113, R116, R117, R119) -/

/-- A payload byte is the next byte of the frame (R119). -/
theorem State.pushed_payloadByte {s : State} {b : Byte} (hroom : s.fidx.toNat < Config.fbufSize)
    (hheader : 4 ≤ s.fidx.toNat) :
    State.Pushed b s { s with
      fbuf := s.fbuf.write s.fidx.toNat b, fidx := s.fidx + 1, acc := s.acc + b
      fst := if s.fidx + 1 = 4 + s.curLen.setWidth 9 then .cks else s.fst } where
  room := hroom
  fbuf := rfl
  fidx := by
    have hroom' : s.fidx.toNat < 258 := hroom
    show (s.fidx + 1).toNat = s.fidx.toNat + 1
    bv_omega
  draws := rfl
  marker0 h0 := by omega
  marker1 h1 := by omega
  curLen _ := (if_neg (by omega)).symm
  acc := (if_neg (by omega)).symm

/-- The block, with one acquisition behind it and `n` bytes discarded, holds the bytes `f` of its first frame. -/
structure Receiving (k : Bool) (n : Word) (f : List Byte) (s : State) : Prop where
  inv : s.Inv
  held : s.heldBytes = f
  sync : s.sync = true
  cksel : s.cksel = k
  resyncCnt : s.resyncCnt = 1
  reported : s.events.getLsbD 16 = true
  discardCnt : s.discardCnt = n
  emitted : s.emitted = []

/-- In state `MID` the block holds the marker (R113). -/
theorem State.Inv.heldBytes_of_mid {s : State} (h : s.Inv) (hfst : s.fst = .mid) :
    s.heldBytes = [Config.marker0, Config.marker1] := by
  obtain ⟨hstream, -, -⟩ := inv_iff.1 h
  obtain ⟨⟨-, -, ⟨h0, h1, -⟩, -⟩, hfidx, -⟩ := (streamOk_mid hfst).1 hstream
  have htwo : s.fidx.toNat = 2 := congrArg BitVec.toNat hfidx
  have hbyte0 : s.byteAt 0 = Config.marker0 := byteAt_of_read (by omega) (h0 (by omega))
  have hbyte1 : s.byteAt 1 = Config.marker1 := byteAt_of_read (by omega) (h1 (by omega))
  rw [heldBytes, htwo, ← hbyte0, ← hbyte1]
  rfl

/-- With the marker complete the block holds the marker and has reported an acquisition (R113). -/
theorem Hunting.acquire {k : Bool} {g : List Byte} {s : State} (h : Hunting k (g ++ [Config.marker0]) s) (hinv : s.Inv) :
    ∃ t, Fed [Config.marker1] s t ∧ t.fst = .mid ∧
      Receiving k (BitVec.ofNat 32 g.length) [Config.marker0, Config.marker1] t := by
  obtain ⟨hfst, hsync, hcksel, hresync, hemitted, hdiscard⟩ := h
  rw [if_pos (by simp)] at hfst hdiscard
  have htake := State.takeByte_secondMarker (s := s.beginStep) hfst
  rw [State.secondMarker_eq, State.beginStep_sync, hsync] at htake
  have hfed := Fed.byte htake
  have ht := hfed.inv hinv
  refine ⟨_, hfed, rfl, ht, ht.heldBytes_of_mid rfl, rfl, hcksel, congrArg (· + 1) hresync, ?_, ?_, ?_⟩
  · exact (BitVec.getLsbD_or ..).trans (Bool.or_true _)
  · rw [List.length_append, List.length_singleton, BitVec.ofNat_add] at hdiscard
    exact (BitVec.add_left_inj _).1 hdiscard
  · rw [State.observed_emitted htake, hemitted]
    rfl

namespace Receiving
variable {k : Bool} {n : Word} {f : List Byte} {s : State} {b : Byte}

/-- A byte that is taken into the frame, and moves nothing but the frame in progress. -/
theorem push {u : State} (h : Receiving k n f s) (htake : s.beginStep.takeByte b = .next u)
    (hpushed : State.Pushed b s.beginStep u)
    (hframe : u = { s.beginStep with fst := u.fst, fbuf := u.fbuf, fidx := u.fidx, curLen := u.curLen, acc := u.acc }) :
    Fed [b] s u.observed ∧ Receiving k n (f ++ [b]) u.observed := by
  have hfed : Fed [b] s u.observed := Fed.byte htake
  have hheld : u.heldBytes = s.heldBytes ++ [b] := hpushed.heldBytes_eq
  have hout : u.out.emitted = [] := congrArg (·.out.emitted) hframe
  have hemitted : u.observed.emitted = [] := by rw [State.observed_emitted htake, hout, h.emitted]; rfl
  exact ⟨hfed, {
    inv := hfed.inv h.inv
    held := hheld.trans (congrArg (· ++ [b]) h.held)
    sync := (congrArg State.sync hframe).trans h.sync
    cksel := (congrArg State.cksel hframe).trans h.cksel
    resyncCnt := (congrArg State.resyncCnt hframe).trans h.resyncCnt
    reported := (congrArg (·.events.getLsbD 16) hframe).trans h.reported
    discardCnt := (congrArg State.discardCnt hframe).trans h.discardCnt
    emitted := hemitted }⟩

/-- `FIDX` counts the held bytes (R23). -/
theorem fidx_toNat (h : Receiving k n f s) : s.fidx.toNat = f.length := by
  rw [← h.held, State.heldBytes_length]

/-- The message-id byte (R116). -/
theorem mid (h : Receiving k n f s) (hfst : s.fst = .mid) (hf : f.length = 2) (b : Byte) :
    ∃ t, Fed [b] s t ∧ t.fst = .len ∧ Receiving k n (f ++ [b]) t := by
  have hfidx : s.fidx = 2 := BitVec.eq_of_toNat_eq (h.fidx_toNat.trans hf)
  have hpushed : State.Pushed b s.beginStep (s.beginStep.midByte b) := by
    constructor <;> simp [State.midByte, hfidx, Config.fbufSize]
  obtain ⟨hfed, ht⟩ := h.push (State.takeByte_of_mid (s := s.beginStep) hfst) hpushed rfl
  exact ⟨_, hfed, rfl, ht⟩

/-- The LEN byte of a standard frame (R117). -/
theorem len (h : Receiving k n f s) (hfst : s.fst = .len) (hf : f.length = 3) (hb : b ≠ Config.extLen) :
    ∃ t, Fed [b] s t ∧ t.fst = (if b = 0 then .cks else .pay) ∧ t.curLen = b ∧ Receiving k n (f ++ [b]) t := by
  have hfidx : s.fidx = 3 := BitVec.eq_of_toNat_eq (h.fidx_toNat.trans hf)
  have hpushed : State.Pushed b s.beginStep (s.beginStep.standardLen b) := by
    constructor <;> simp [State.standardLen, hfidx, Config.fbufSize]
  have htake : s.beginStep.takeByte b = .next (s.beginStep.standardLen b) := by
    rw [State.takeByte_of_len (s := s.beginStep) hfst, if_neg hb]
  obtain ⟨hfed, ht⟩ := h.push htake hpushed rfl
  exact ⟨_, hfed, rfl, rfl, ht⟩

/-- A payload byte; the last one ends the payload (R119). -/
theorem payloadByte (h : Receiving k n f s) (hfst : s.fst = .pay) (hf : 4 ≤ f.length) (b : Byte) :
    ∃ t, Fed [b] s t ∧ t.fst = (if f.length + 1 = 4 + s.curLen.toNat then .cks else .pay) ∧ t.curLen = s.curLen ∧
      Receiving k n (f ++ [b]) t := by
  obtain ⟨hstream, -, -⟩ := State.inv_iff.1 h.inv
  have hroom : s.fidx.toNat < 258 := hstream.payload_room hfst
  have hfidx : s.fidx.toNat = f.length := h.fidx_toNat
  have htake := (State.takeByte_of_pay (s := s.beginStep) (b := b) hfst).trans (State.payloadByte_of_lt hroom)
  have hpushed : State.Pushed b s.beginStep _ := State.pushed_payloadByte (s := s.beginStep) (b := b) hroom (by
    rw [State.beginStep_fidx, hfidx]; exact hf)
  obtain ⟨hfed, ht⟩ := h.push htake hpushed rfl
  have hlast := State.last_payloadByte_iff hroom
  rw [hfidx] at hlast
  exact ⟨_, hfed, if_congr hlast rfl hfst, rfl, ht⟩

/-- The whole payload (R119). -/
theorem payload (ps : List Byte) : ∀ {f : List Byte} {s : State}, Receiving k n f s →
    s.fst = (if ps = [] then .cks else .pay) → 4 ≤ f.length → f.length + ps.length = 4 + s.curLen.toNat →
    ∃ t, Fed ps s t ∧ t.fst = .cks ∧ Receiving k n (f ++ ps) t := by
  induction ps with
  | nil =>
    intro f s h hfst _ _
    exact ⟨s, Fed.nil s, hfst, by rwa [List.append_nil]⟩
  | cons p ps ih =>
    intro f s h hfst hf hlength
    rw [List.length_cons] at hlength
    obtain ⟨t, hfed, htfst, htlen, ht⟩ := h.payloadByte (hfst.trans (if_neg (List.cons_ne_nil p ps))) hf p
    have hlast : f.length + 1 = 4 + s.curLen.toNat ↔ ps = [] := by
      rw [← List.length_eq_zero_iff]
      omega
    have hmore : t.fst = if ps = [] then .cks else .pay := htfst.trans (if_congr hlast rfl rfl)
    obtain ⟨u, hfed', hufst, hu⟩ := ih ht hmore (by simp; omega) (by simp [htlen]; omega)
    exact ⟨u, hfed.append hfed', hufst, by rwa [List.append_assoc] at hu⟩

end Receiving

/-! ### The commit (R140, R143, R144) -/

/-- In state `CKS` the held bytes are the marker, the header and the payload (R23). -/
theorem State.Inv.heldBytes_of_cks {s : State} (h : s.Inv) (hfst : s.fst = .cks) :
    s.heldBytes = s.byteAt 0 :: s.byteAt 1 :: s.byteAt 2 :: s.curLen :: s.payload := by
  obtain ⟨hstream, -, -⟩ := inv_iff.1 h
  obtain ⟨⟨-, -, ⟨-, -, h3⟩, -⟩, hfidx, -⟩ := (streamOk_cks hfst).1 hstream
  have hlen : s.byteAt 3 = s.curLen := byteAt_of_read (by omega) (h3 (by omega))
  rw [heldBytes, hfidx, List.range_add, List.map_append, List.map_map]
  exact congrArg (fun b => s.byteAt 0 :: s.byteAt 1 :: s.byteAt 2 :: b :: s.payload) hlen

/-- The running sum from the MID on gives the checksum of the frame under either coverage; the byte `0xFF` of the marker
is added when it is covered (R140, R142, R143). -/
theorem ckExpected_byteSum (k : Bool) (mid : Byte) (p : List Byte) :
    ckExpected (byteSum ((frameBody mid p).drop 2)) k = ckCompute (frameBody mid p) k := by
  cases k
  · exact congrArg (- ·) (BitVec.add_comm _ Config.marker1)
  · exact congrArg (- ·) (BitVec.add_zero _)

theorem getLsbD_or_of_left {a b : Word} {i : Nat} (h : a.getLsbD i = true) : (a ||| b).getLsbD i = true := by
  rw [BitVec.getLsbD_or, h, Bool.true_or]

/-- A record is no frame. -/
theorem State.recordCommit_frames (p : List Byte) (s : State) :
    (s.recordCommit p).out.emitted.filter OutEvent.isFrame = s.out.emitted.filter OutEvent.isFrame := by
  rw [recordCommit_out]
  exact (List.filter_append ..).trans (List.append_nil _)

/-- A frame accepted, with or without a record, is the one frame emitted; the synchronization and its counts are as
before, and what was reported stays reported (R144, R145, R146). -/
theorem State.acceptFrame_spec {s t : State} {mid ck : Byte} {m : Bool} (h : s.acceptFrame mid ck m = .next t) :
    t.out.emitted.filter OutEvent.isFrame =
        s.out.emitted.filter OutEvent.isFrame ++ [.frameOut mid s.curLen s.payload ck] ∧
      t.resyncCnt = s.resyncCnt ∧ (s.events.getLsbD 16 = true → t.events.getLsbD 16 = true) ∧
      t.discardCnt = s.discardCnt ∧ t.sync = s.sync := by
  obtain ⟨-, rfl⟩ := acceptFrame_next_iff.1 h
  cases m
  · exact ⟨List.filter_append .., rfl, fun hbit => getLsbD_or_of_left hbit, rfl, rfl⟩
  · refine ⟨(recordCommit_frames _ _).trans (List.filter_append ..), recordCommit_resyncCnt _ _, fun hbit => ?_,
      recordCommit_discardCnt _ _, recordCommit_sync _ _⟩
    have hevents := congrArg State.events (recordCommit_eq s.payload (s.frameAccepted mid ck))
    exact (congrArg (·.getLsbD 16) hevents).trans (getLsbD_or_of_left (getLsbD_or_of_left hbit))

/-- The expected checksum byte completes, as the acceptance of the held frame (R120, R144). -/
theorem State.takeByte_of_match {s : State} {ck : Byte} (hfst : s.fst = .cks) (hck : ck = ckExpected s.acc s.cksel)
    (hfits : s.PayloadFits) :
    ∃ t, s.takeByte ck = .next t ∧ s.acceptFrame (s.byteAt 2) ck (decide (s.byteAt 2 = Config.measMid)) = .next t := by
  rw [takeByte_of_cks hfst, commit_of_match hck]
  exact ⟨_, acceptFrame_of_fits hfits, acceptFrame_of_fits hfits⟩

/-- The checksum byte of a held frame commits it (R120, R144). -/
theorem Receiving.commit {k : Bool} {n : Word} {mid : Byte} {p : List Byte} {s : State}
    (h : Receiving k n (frameBody mid p) s) (hfst : s.fst = .cks) :
    ∃ t, Fed [ckCompute (frameBody mid p) k] s t ∧
      t.emitted.filter OutEvent.isFrame =
        [.frameOut mid (BitVec.ofNat 8 p.length) p (ckCompute (frameBody mid p) k)] ∧
      t.resyncCnt = 1 ∧ t.events.getLsbD 16 = true ∧ t.discardCnt = n ∧ t.sync = true := by
  have hheld : s.byteAt 0 :: s.byteAt 1 :: s.byteAt 2 :: s.curLen :: s.payload = frameBody mid p :=
    (h.inv.heldBytes_of_cks hfst).symm.trans h.held
  simp only [frameBody, List.cons.injEq] at hheld
  obtain ⟨-, -, hmid, hlen, hpayload⟩ := hheld
  have hck : ckCompute (frameBody mid p) k = ckExpected s.acc s.cksel := by
    rw [h.inv.accSum, h.held, h.cksel, ckExpected_byteSum]
  obtain ⟨hstream, -, -⟩ := State.inv_iff.1 h.inv
  obtain ⟨u, htake, haccept⟩ := State.takeByte_of_match (s := s.beginStep) hfst hck (hstream.commit_fits hfst)
  obtain ⟨hframes, hresync, hevents, hdiscard, hsync⟩ := State.acceptFrame_spec haccept
  refine ⟨u.observed, Fed.byte htake, ?_, hresync.trans h.resyncCnt, hevents h.reported, hdiscard.trans h.discardCnt,
    hsync.trans h.sync⟩
  have hframe : OutEvent.frameOut (s.byteAt 2) s.curLen s.payload (ckCompute (frameBody mid p) k) =
      .frameOut mid (BitVec.ofNat 8 p.length) p (ckCompute (frameBody mid p) k) := by rw [hmid, hlen, hpayload]
  rw [State.observed_emitted htake, h.emitted, List.nil_append, hframes, ← hframe]
  rfl

/-! ### From reset, under either coverage (R126) -/

theorem hunting_reset (k : Bool) : Hunting k [] { State.reset with cksel := k } := by
  constructor <;> rfl

theorem reset_cksel_inv (k : Bool) : State.Inv { State.reset with cksel := k } := by
  obtain ⟨hstream, hregs, hirq⟩ := State.inv_iff.1 State.reset_inv
  exact State.inv_iff.2 ⟨hstream, hregs, hirq⟩

end Sys2Proof.Machine

open Sys2Proof Sys2Proof.Machine

/-- Settles O58: the garbage is hunted through, and the frame is received byte by byte and committed. -/
theorem resyncAfterGarbage : Obligations.ResyncAfterGarbage := by
  intro g k mid payload hno hlen stream
  obtain ⟨s, hgarbage, hs⟩ := hunting_of_noMarker (hunting_reset k) _ hno.append_marker0
  obtain ⟨t, hmarker, htfst, ht⟩ := hs.acquire (hgarbage.inv (reset_cksel_inv k))
  obtain ⟨u, hmidByte, hufst, hu⟩ := ht.mid htfst rfl mid
  have hlenByte : (BitVec.ofNat 8 payload.length).toNat = payload.length := by
    rw [BitVec.toNat_ofNat]
    omega
  have hstandard : BitVec.ofNat 8 payload.length ≠ Config.extLen := fun he => by
    have h255 : payload.length = 255 := hlenByte.symm.trans (congrArg BitVec.toNat he)
    omega
  obtain ⟨v, hlenFed, hvfst, hvlen, hv⟩ := hu.len hufst rfl hstandard
  have hempty : BitVec.ofNat 8 payload.length = 0 ↔ payload = [] := by
    rw [← BitVec.toNat_inj, hlenByte]
    exact List.length_eq_zero_iff
  obtain ⟨w, hpayload, hwfst, hw⟩ := hv.payload payload (hvfst.trans (if_congr hempty rfl rfl)) (Nat.le_refl 4)
    (by rw [hvlen, hlenByte]; rfl)
  obtain ⟨x, hck, hx⟩ := hw.commit hwfst
  have hfed : Fed (g ++ wireFrame k mid payload) { State.reset with cksel := k } x := by
    have hall := hgarbage.append (hmarker.append (hmidByte.append (hlenFed.append (hpayload.append hck))))
    simpa [wireFrame, frameBody] using hall
  exact ⟨x.withInputs [], hfed.run, hx⟩

end

section
/-! SUPPORT. The checksum as a sum (41_checksum.md R140, R141, R148, R149): validity is a zero sum of the covered bytes,
and a change of one of them changes it. -/

namespace Sys2Proof.Machine

/-! ### The sum -/

theorem byteSum_eq_sum (l : List Byte) : byteSum l = l.sum := by
  induction l with
  | nil => rfl
  | cons b l ih => rw [List.sum_cons, ← ih]; rfl

/-- Another byte at one place gives another sum modulo 256. -/
theorem byteSum_set_ne {l : List Byte} {j : Nat} {b : Byte} (hj : j < l.length) (hb : b ≠ l[j]) :
    byteSum (l.set j b) ≠ byteSum l := fun h => by
  rw [byteSum_eq_sum, byteSum_eq_sum, List.sum_set', dif_pos hj, add_eq_left, neg_add_eq_zero] at h
  exact hb h.symm

/-! ### Validation -/

/-- The index of the first byte that coverage `k` sums, `1 + k` (R140). -/
def firstCovered (k : Bool) : Nat := if k then 2 else 1

theorem firstCovered_le (k : Bool) : firstCovered k ≤ 2 := by cases k <;> decide

theorem ckCompute_eq (f : List Byte) (k : Bool) : ckCompute f k = -byteSum (f.drop (firstCovered k)) := rfl

/-- A frame is valid when its last byte is the checksum of the bytes before it (R141). -/
theorem ckValidate_append_iff {f : List Byte} {ck : Byte} {k : Bool} :
    ckValidate (f ++ [ck]) k = true ↔ ck = ckCompute f k := by
  simp [ckValidate]

/-- A frame is valid when its covered bytes, the checksum byte among them, sum to 0 (R141). -/
theorem ckValidate_iff_byteSum_eq_zero {g : List Byte} {k : Bool} (hg : firstCovered k < g.length) :
    ckValidate g k = true ↔ byteSum (g.drop (firstCovered k)) = 0 := by
  obtain rfl | ⟨f, ck, rfl⟩ := g.eq_nil_or_concat'
  · exact absurd hg (Nat.not_lt_zero _)
  · have hf : firstCovered k ≤ f.length := by simpa using hg
    rw [ckValidate_append_iff, ckCompute_eq, List.drop_append_of_le_length hf, byteSum_append, eq_neg_iff_add_eq_zero,
      add_comm]

/-- Another byte at a covered place makes a valid frame invalid (R148). -/
theorem ckValidate_set_of_ne {g : List Byte} {k : Bool} {j : Nat} {b : Byte} (hk : firstCovered k ≤ j)
    (hj : j < g.length) (hb : b ≠ g[j]) (hvalid : ckValidate g k = true) : ckValidate (g.set j b) k = false := by
  have hg : firstCovered k < g.length := hk.trans_lt hj
  rw [ckValidate_iff_byteSum_eq_zero hg] at hvalid
  rw [Bool.eq_false_iff, Ne, ckValidate_iff_byteSum_eq_zero (by rwa [List.length_set]), ← hvalid, List.drop_set,
    if_neg hk.not_gt]
  refine byteSum_set_ne (by rw [List.length_drop]; omega) ?_
  simpa [Nat.add_sub_cancel' hk] using hb

/-- A flipped bit gives another byte. -/
theorem xor_twoPow_ne (b : Byte) {bit : Nat} (hbit : bit < 8) : b ^^^ BitVec.twoPow 8 bit ≠ b := fun h => by
  have hget := congrArg (·.getLsbD bit) h
  simp [hbit] at hget

/-! ### The two coverages (R149) -/

/-- The byte `0xFF` of the marker is the one that coverage 0 sums and coverage 1 does not; it counts as -1. -/
theorem ckCompute_false_eq (b : Byte) (rest : List Byte) :
    ckCompute (b :: Config.marker1 :: rest) false = ckCompute (b :: Config.marker1 :: rest) true + 1 :=
  calc -(Config.marker1 + byteSum rest)
      = -Config.marker1 + -byteSum rest := neg_add _ _
    _ = 1 + -byteSum rest := congrArg (· + -byteSum rest) (by decide : -Config.marker1 = 1)
    _ = -byteSum rest + 1 := add_comm _ _

/-! ### The held frame (R143, R144) -/

theorem State.ofNat_payload_length (s : State) : BitVec.ofNat 8 s.payload.length = s.curLen := by
  rw [payload_length, BitVec.ofNat_toNat, BitVec.setWidth_eq]

/-- In state `CKS` the held bytes are the frame of the held MID and payload, but for its checksum (R23, R87). -/
theorem State.Inv.heldBytes_eq_frameBody {s : State} (h : s.Inv) (hfst : s.fst = .cks) :
    s.heldBytes = frameBody (s.byteAt 2) s.payload := by
  obtain ⟨hstream, -, -⟩ := inv_iff.1 h
  obtain ⟨⟨-, -, ⟨h0, h1, -⟩, -⟩, hfidx, -⟩ := (streamOk_cks hfst).1 hstream
  have hbyte0 : s.byteAt 0 = Config.marker0 := byteAt_of_read (by omega) (h0 (by omega))
  have hbyte1 : s.byteAt 1 = Config.marker1 := byteAt_of_read (by omega) (h1 (by omega))
  rw [h.heldBytes_of_cks hfst, hbyte0, hbyte1, frameBody, ofNat_payload_length]

/-- The wire frame of an emitted frame: the frame's bytes and its checksum (R145). -/
theorem wire_frameOut (mid ck : Byte) (p : List Byte) :
    OutEvent.wire (.frameOut mid (BitVec.ofNat 8 p.length) p ck) = some (frameBody mid p ++ [ck]) := rfl

/-- A step that begins with a commit that does not match, up to the end of the frame (R144, R147). -/
theorem State.rejectFrame_beginStep (mid ck : Byte) (s : State) :
    s.beginStep.rejectFrame mid ck = State.closeFrame { s with
      lastFrame := ckExpected s.acc s.cksel ++ ck ++ s.curLen ++ mid
      ckerrCnt := s.ckerrCnt + 1, events := s.events ||| EventCode.ckerr.bit, raised := [.ckerr]
      out := ⟨none, [], s.irq⟩ } := by
  rw [← packLastFrame_eq]
  rfl

end Sys2Proof.Machine

open Sys2Proof Sys2Proof.Machine

/-- Settles O28: the held bytes are a frame's, and the running sum gives that frame's checksum. -/
theorem commitChecksumIsOfTheWholeFrame : Obligations.CommitChecksumIsOfTheWholeFrame := by
  intro s h hfst
  rw [h.accSum, h.heldBytes_eq_frameBody hfst, ← s.ofNat_payload_length]
  exact ⟨ckExpected_byteSum _ _ _, wire_frameOut _ _ _⟩

/-- Settles O29: a byte valid under both coverages would be its own successor. -/
theorem checksumRoundTripAndCoverages : Obligations.ChecksumRoundTripAndCoverages := by
  intro rest k f
  have hdiff : ckCompute f false = ckCompute f true + 1 := ckCompute_false_eq _ rest
  refine ⟨ckValidate_append_iff.2 rfl, hdiff, fun ck ⟨hfalse, htrue⟩ => ?_⟩
  have hsame : ckCompute f true = ckCompute f true + 1 :=
    ((ckValidate_append_iff.1 htrue).symm.trans (ckValidate_append_iff.1 hfalse)).trans hdiff
  exact absurd (left_eq_add.1 hsame) (by decide)

/-- Settles O30: the flipped byte is another byte, at a covered place. -/
theorem singleBitFlipIsDetected : Obligations.SingleBitFlipIsDetected := by
  refine ⟨fun g k j bit _ hk hj hbit hvalid => ?_, fun g hg => ?_⟩
  · rw [List.getD_eq_getElem g 0 hj]
    exact ckValidate_set_of_ne hk hj (xor_twoPow_ne _ hbit) hvalid
  · exact ckValidate_iff_byteSum_eq_zero (k := false) ((firstCovered_le _).trans_lt hg)

/-- Settles O25: the rejected frame, closed; its one event is the cause. -/
theorem checksumMismatch : Obligations.ChecksumMismatch := by
  intro ck s hfst hck
  have hreject : s.beginStep.takeByte ck = .next (s.beginStep.rejectFrame (s.byteAt 2) ck) :=
    (State.takeByte_of_cks (s := s.beginStep) hfst).trans (State.commit_of_mismatch hck)
  rw [exec_byte_of_takeByte hreject, State.rejectFrame_beginStep]
  rfl

end

section
/-! SUPPORT. The extraction of a known field (42_tlv_parser.md R166 to R187): it reads the bytes of the layout alone,
and what it writes is spelled out row by row. -/

namespace Sys2Proof.Machine

/-! ### The bytes an extraction reads (R167) -/

theorem byteOf_take {v : List Byte} {k n : Nat} (hk : k < n) : byteOf (v.take n) k = byteOf v k := by
  simp [byteOf, List.getD_eq_getElem?_getD, List.getElem?_take_of_lt hk]

/-- An extraction depends on the bytes of the layout alone: it reads none at or past the layout size. -/
theorem extract_take (f : Field) (v : List Byte) (r : FieldRegs) : extract v r f = extract (v.take f.size) r f := by
  cases f <;> simp only [extract, fpHi, fpLo, fp1632, f32, be32, be16, Field.size, byteOf_take, Nat.reduceLT,
    Nat.reduceAdd, Nat.reduceMul]

theorem extract_append {f : Field} {v : List Byte} (hv : v.length = f.size) (more : List Byte) (r : FieldRegs) :
    extract (v ++ more) r f = extract v r f := by
  rw [extract_take, ← hv, List.take_left]

/-! ### Packed registers -/

/-- Widening what stands on the left widens the whole. -/
theorem setWidth_append_left {m k : Nat} (n : Nat) (x : BitVec m) (y : BitVec k) :
    (x ++ y).setWidth (n + k) = x.setWidth n ++ y := by
  apply BitVec.eq_of_getLsbD_eq
  intro i hi
  simp [hi]

theorem setWidth_eq_zero_append (n : Nat) (b : Byte) : b.setWidth (n + 8) = 0#n ++ b := by
  apply BitVec.eq_of_toNat_eq
  rw [BitVec.toNat_setWidth_of_le (Nat.le_add_left 8 n), BitVec.toNat_append]
  simp

/-- Two bytes fill the low half of a register, whose high half is 0 (R171). -/
theorem setWidth_two_bytes (a b : Byte) : (a ++ b).setWidth 32 = 0#16 ++ a ++ b :=
  (setWidth_append_left 24 a b).trans (congrArg (· ++ b) (setWidth_eq_zero_append 16 a))

/-- Three bytes fill a register but for its high byte, which is 0 (R173). -/
theorem setWidth_three_bytes (a b c : Byte) : (a ++ b ++ c).setWidth 32 = 0#8 ++ a ++ b ++ c :=
  calc (a ++ b ++ c).setWidth 32
      = (a ++ b).setWidth 24 ++ c := setWidth_append_left 24 (a ++ b) c
    _ = a.setWidth 16 ++ b ++ c := congrArg (· ++ c) (setWidth_append_left 16 a b)
    _ = 0#8 ++ a ++ b ++ c := congrArg (· ++ b ++ c) (setWidth_eq_zero_append 8 a)

/-- `UTC_YMD`: day, month, year, the highest first (R173). -/
theorem utcYmd_eq_append (day month y1 y0 : Byte) :
    (day.setWidth 32 <<< 24) ||| (month.setWidth 32 <<< 16) ||| (y1 ++ y0 : Half).setWidth 32 =
      day ++ month ++ y1 ++ y0 := by
  have hpack := BitVec.setWidth_append_append_eq_shiftLeft_setWidth_or (w''' := 32) (b := day) (b' := month)
    (b'' := (y1 ++ y0 : Half))
  have hassoc := BitVec.append_assoc (x₁ := day ++ month) (x₂ := y1) (x₃ := y0)
  exact hpack.symm.trans ((BitVec.setWidth_eq _).trans hassoc.symm)

/-- `UTC_HMS`: second, minute, hour below a byte of 0 (R173). -/
theorem utcHms_eq_append (sec min hour : Byte) :
    (sec.setWidth 32 <<< 16) ||| (min.setWidth 32 <<< 8) ||| hour.setWidth 32 = 0#8 ++ sec ++ min ++ hour := by
  have hpack := BitVec.setWidth_append_append_eq_shiftLeft_setWidth_or (w''' := 32) (b := sec) (b' := min)
    (b'' := hour)
  exact hpack.symm.trans (setWidth_three_bytes sec min hour)

/-! ### FP1632 (R169) -/

/-- The integer part, sign-extended to 32 bits, stands above the 32 bits of the fraction. -/
theorem fp1632_eq_append (v : List Byte) (k : Nat) :
    fp1632 v k = (be16 v (k + 4)).signExtend 32 ++ be32 v k := by
  apply BitVec.eq_of_getLsbD_eq
  intro i hi
  simp only [fp1632, BitVec.getLsbD_or, BitVec.getLsbD_shiftLeft, BitVec.getLsbD_signExtend, BitVec.getLsbD_setWidth,
    BitVec.getLsbD_append]
  by_cases hlow : i < 32
  · simp [hlow, hi]
  · have hhigh : i - 32 < 32 := by omega
    have hpast : (be32 v k).getLsbD i = false := BitVec.getLsbD_of_ge _ _ (not_lt.1 hlow)
    simp [hlow, hi, hhigh, hpast, show i - 32 < 64 by omega]

theorem fpHi_eq (v : List Byte) (k : Nat) : fpHi v k = (be16 v (k + 4)).signExtend 32 := by
  rw [fpHi, fp1632_eq_append]
  exact BitVec.extractLsb'_append_eq_left

theorem fpLo_eq (v : List Byte) (k : Nat) : fpLo v k = be32 v k := by
  rw [fpLo, fp1632_eq_append]
  exact BitVec.extractLsb'_append_eq_right

/-! ### A whole row -/

/-- The row of a known field, on a value that fills the layout and may go on after it (R161, R167). -/
theorem exec_fieldInstr_append {f : Field} {v : List Byte} (hv : v.length = f.size) (more : List Byte) (s : State) :
    exec (f.instr (v ++ more)) s = .next { s with
      work := s.work.extracted (f.size + more.length) f.size f.number (extract v s.work.regs f) } := by
  have hlen : (v ++ more).length = f.size + more.length := by rw [List.length_append, hv]
  rw [exec_fieldInstr, TlvWork.known_of_fits (hlen ▸ Nat.le_add_right _ _), extract_append hv, hlen]
  rfl

end Sys2Proof.Machine

open Sys2Proof Sys2Proof.Machine

/-- Settles O34: by R169, `HI` is the sign-extended integer part and `LO` the fraction. -/
theorem fixedPointRecords : Obligations.FixedPointRecords := by
  intro f3 f2 f1 f0 i1 i0 g3 g2 g1 g0 j1 j0 h3 h2 h1 h0 k1 k0 more s
  refine ⟨(exec_fieldInstr_append (f := .alt) (v := [f3, f2, f1, f0, i1, i0]) rfl more s).trans ?_,
    (exec_fieldInstr_append (f := .latLon) (v := [f3, f2, f1, f0, i1, i0, g3, g2, g1, g0, j1, j0]) rfl more s).trans ?_,
    (exec_fieldInstr_append (f := .vel)
      (v := [f3, f2, f1, f0, i1, i0, g3, g2, g1, g0, j1, j0, h3, h2, h1, h0, k1, k0]) rfl more s).trans ?_⟩
  all_goals
    simp only [extract, fpHi_eq, fpLo_eq]
    rfl

/-- Settles O31: the bytes of the layout, in wire order. -/
theorem scalarRecords : Obligations.ScalarRecords := by
  intro a b c d more s
  have hword (f : Field) (hf : f.size = 4) := exec_fieldInstr_append (f := f) (v := [a, b, c, d]) hf.symm more s
  refine ⟨?_, hword .sampleTime rfl, hword .statusWord rfl, hword .temp rfl, hword .baro rfl⟩
  rw [← setWidth_two_bytes]
  exact exec_fieldInstr_append (f := .pktCnt) (v := [a, b]) rfl more s

/-- Settles O32: nanoseconds as they stand, the date and the time of day packed. -/
theorem utcRecord : Obligations.UtcRecord := by
  intro n3 n2 n1 n0 y1 y0 mo da ho mi se more s
  rw [← utcYmd_eq_append da mo, ← utcHms_eq_append se]
  exact exec_fieldInstr_append (f := .utc) (v := [n3, n2, n1, n0, y1, y0, mo, da, ho, mi, se]) rfl more s

/-- Settles O33: a component is the four bytes at its place, uninterpreted. -/
theorem floatRecords : Obligations.FloatRecords := by
  intro a0 a1 a2 a3 b0 b1 b2 b3 c0 c1 c2 c3 d0 d1 d2 d3 more s
  have hthree (f : Field) (hf : f.size = 12) :=
    exec_fieldInstr_append (f := f) (v := [a0, a1, a2, a3, b0, b1, b2, b3, c0, c1, c2, c3]) hf.symm more s
  have hfour (f : Field) (hf : f.size = 16) :=
    exec_fieldInstr_append (f := f) (v := [a0, a1, a2, a3, b0, b1, b2, b3, c0, c1, c2, c3, d0, d1, d2, d3])
      hf.symm more s
  exact ⟨hthree .euler rfl, hthree .acc rfl, hthree .facc rfl, hthree .rot rfl, hthree .mag rfl, hthree .dv rfl,
    hfour .quat rfl, hfour .dq rfl⟩

/-- Settles O35: the row is the pass over a record of an unknown id. -/
theorem unknownRecordIsSkipped : Obligations.UnknownRecordIsSkipped := fun _ _ _ => rfl

/-- Settles O36: the rows of the known ids are one pass each, which extracts nothing from a short value. -/
theorem shortRecordIsSkipped : Obligations.ShortRecordIsSkipped := fun f v s hshort => by
  rw [exec_fieldInstr, TlvWork.known_of_short hshort]

end

section
/-! SUPPORT. Several records of one payload and the field registers (42_tlv_parser.md R163, R166, R168): what one pass
writes, and what the passes after it leave. -/

namespace Sys2Proof.Machine

/-- An extraction overwrites every register that an earlier one of its field wrote (R168). -/
theorem extract_extract (f : Field) (v v' : List Byte) (r : FieldRegs) :
    extract v (extract v' r f) f = extract v r f := by
  cases f <;> rfl

theorem bitVec_or_right_comm {n : Nat} (a b c : BitVec n) : a ||| b ||| c = a ||| c ||| b := by
  rw [BitVec.or_assoc, BitVec.or_comm b, ← BitVec.or_assoc]

namespace TlvWork
variable {f : Field} {w w' : TlvWork}

/-- What a pass does to the field registers and the mask: it extracts one known field whose layout the value fills, or
it leaves both as they are (R161, R163, R166). -/
theorem pass_bank_cases (id : Half) (v : List Byte) :
    (∃ g, Field.ofId id = some g ∧ g.size ≤ v.length ∧ ∀ w : TlvWork,
      (w.pass id v).regs = extract v w.regs g ∧ (w.pass id v).av = w.av ||| 1#17 <<< g.number) ∨
    ∀ w : TlvWork, (w.pass id v).regs = w.regs ∧ (w.pass id v).av = w.av := by
  unfold pass
  cases Field.ofId id with
  | none => exact .inr fun _ => ⟨rfl, rfl⟩
  | some g =>
    obtain hshort | hfits := Nat.lt_or_ge v.length g.size
    · refine .inr fun w => ?_
      dsimp only
      rw [known_of_short hshort]
      exact ⟨rfl, rfl⟩
    · refine .inl ⟨g, rfl, hfits, fun w => ?_⟩
      dsimp only
      rw [known_of_fits hfits]
      exact ⟨rfl, rfl⟩

/-- Two working sets whose field registers and masks differ at most in field `f`: extracting `f` makes them the same. -/
structure SameBut (f : Field) (w w' : TlvWork) : Prop where
  regs : ∀ v, extract v w.regs f = extract v w'.regs f
  av : w.av ||| 1#17 <<< f.number = w'.av ||| 1#17 <<< f.number

theorem sameBut_known {v : List Byte} (hv : f.size ≤ v.length) (w : TlvWork) : SameBut f (w.known f v) w := by
  rw [known_of_fits hv]
  exact ⟨fun v' => extract_extract f v' v w.regs, by rw [BitVec.or_assoc, BitVec.or_self]⟩

theorem SameBut.pass (h : SameBut f w w') (id : Half) (v : List Byte) : SameBut f (w.pass id v) (w'.pass id v) := by
  obtain ⟨g, -, -, hpass⟩ | hpass := pass_bank_cases id v
  all_goals
    obtain ⟨hregs, hav⟩ := hpass w
    obtain ⟨hregs', hav'⟩ := hpass w'
  · refine ⟨fun u => ?_, ?_⟩
    · rw [hregs, hregs']
      obtain rfl | hne := eq_or_ne f g
      · rw [h.regs]
      · rw [extract_comm hne, h.regs, extract_comm hne]
    · rw [hav, hav', bitVec_or_right_comm, h.av, bitVec_or_right_comm]
  · exact ⟨fun u => by rw [hregs, hregs', h.regs], by rw [hav, hav', h.av]⟩

theorem SameBut.passes (rs : List (Half × List Byte)) :
    ∀ {w w' : TlvWork}, SameBut f w w' → SameBut f (w.passes rs) (w'.passes rs) := by
  induction rs with
  | nil => exact id
  | cons r rs ih => exact fun h => ih (h.pass r.1 r.2)

/-- The field registers of `f` are what `v` carries, and `f` is available. -/
structure Holds (f : Field) (v : List Byte) (w : TlvWork) : Prop where
  regs : extract v w.regs f = w.regs
  avail : w.av.getLsbD f.number = true

theorem holds_known {v : List Byte} (hv : f.size ≤ v.length) (w : TlvWork) : Holds f v (w.known f v) := by
  rw [known_of_fits hv]
  exact ⟨extract_extract f v v w.regs, by simp [f.number_lt]⟩

/-- A pass that does not extract `f` leaves the registers of `f` and its availability bit (R166). -/
theorem Holds.pass {u v : List Byte} {id : Half} (h : Holds f v w)
    (hshort : Field.ofId id = some f → u.length < f.size) : Holds f v (w.pass id u) := by
  obtain ⟨g, hg, hfits, hpass⟩ | hpass := pass_bank_cases id u
  all_goals obtain ⟨hregs, hav⟩ := hpass w
  · have hne : f ≠ g := by
      rintro rfl
      exact absurd (hshort hg) hfits.not_gt
    exact ⟨by rw [hregs, extract_comm hne, h.regs], by rw [hav, BitVec.getLsbD_or, h.avail, Bool.true_or]⟩
  · exact ⟨by rw [hregs, h.regs], by rw [hav, h.avail]⟩

theorem Holds.passes {v : List Byte} (rs : List (Half × List Byte))
    (hshort : ∀ r ∈ rs, Field.ofId r.1 = some f → r.2.length < f.size) :
    ∀ {w : TlvWork}, Holds f v w → Holds f v (w.passes rs) := by
  induction rs with
  | nil => exact id
  | cons r rs ih =>
    obtain ⟨hr, hrs⟩ := List.forall_mem_cons.1 hshort
    exact fun h => ih hrs (h.pass hr)

end TlvWork
end Sys2Proof.Machine

open Sys2Proof Sys2Proof.Machine

/-- Settles O37: an earlier extraction makes a difference in its own field alone, which a later one overwrites and no
record without an extraction of that field touches. -/
theorem longAndRepeatedRecords : Obligations.LongAndRepeatedRecords := by
  intro f v v' rs w through
  refine ⟨fun _ => extract_take f v w.regs, fun hv hv' => ?_, fun hv hshort => ?_⟩
  · have hsame : TlvWork.SameBut f (through (w.known f v)) (through w) := (TlvWork.sameBut_known hv w).passes rs
    rw [TlvWork.known_of_fits hv', TlvWork.known_of_fits hv']
    exact ⟨hsame.regs v', hsame.av⟩
  · have hholds : TlvWork.Holds f v (through (w.known f v)) := (TlvWork.holds_known hv w).passes rs hshort
    exact ⟨hholds.regs, hholds.avail⟩

end

section
/-! SUPPORT. The end of a decode (42_tlv_parser.md R161, R164, R165): a truncated tail, and how many records a payload
can hold. -/

namespace Sys2Proof

theorem fetchRecord_of_short_header {tail : List Byte} (h : tail.length = 1 ∨ tail.length = 2) :
    fetchRecord tail = .headerShort := by
  obtain h | h := h
  · obtain ⟨a, rfl⟩ := List.length_eq_one_iff.1 h
    rfl
  · obtain ⟨a, b, rfl⟩ := List.length_eq_two.1 h
    rfl

theorem fetchRecord_of_short_value {hi lo len : Byte} {v : List Byte} (h : v.length < len.toNat) :
    fetchRecord (hi :: lo :: len :: v) = .valueShort :=
  if_pos h

/-- A declared length past the payload is read from a whole header (R164). -/
theorem three_le_length_of_valueShort {bytes : List Byte} (h : fetchRecord bytes = .valueShort) :
    3 ≤ bytes.length := by
  unfold fetchRecord at h
  split at h
  case h_4 => simp
  all_goals contradiction

namespace Machine

/-- Counting a record raises the count, an 8-bit word, by 1 at most. -/
theorem toNat_succ_le (n : Byte) : (n + 1).toNat ≤ n.toNat + 1 := by
  rw [BitVec.toNat_add]
  exact Nat.mod_le _ _

/-- Every header that the loop counts has three bytes of the payload to itself. -/
theorem three_mul_nrec_le {p : List Byte} (fuel : Nat) : ∀ w : TlvWork, 3 * w.nrec.toNat ≤ w.off →
    w.off ≤ p.length → 3 * (tlvLoop fuel p w).nrec.toNat ≤ p.length := by
  induction fuel with
  | zero => exact fun _ hcount hoff => hcount.trans hoff
  | succ fuel ih =>
    intro w hcount hoff
    have hstep : (w.nrec + 1).toNat ≤ w.nrec.toNat + 1 := toNat_succ_le w.nrec
    have hleft : (p.drop w.off).length = p.length - w.off := List.length_drop
    unfold tlvLoop
    split
    case h_1 => exact hcount.trans hoff
    case h_2 => exact hcount.trans hoff
    case h_3 hfetch =>
      have hheader : 3 ≤ (p.drop w.off).length := three_le_length_of_valueShort hfetch
      dsimp only
      omega
    case h_4 id v hfetch =>
      obtain ⟨-, rest, hbytes⟩ := fetchRecord_eq_record hfetch
      rw [hbytes, List.length_append, recordBytes_length] at hleft
      refine ih _ ?_ ?_
      · rw [TlvWork.pass_nrec, TlvWork.pass_off]
        omega
      · rw [TlvWork.pass_off]
        omega

end Machine
end Sys2Proof

open Sys2Proof Sys2Proof.Machine

/-- Settles O39: the loop comes to the tail with the passes of the whole records done. -/
theorem truncationKeepsEarlierFields : Obligations.TruncationKeepsEarlierFields := by
  refine fun rs hrs => ⟨fun tail htail => ?_, fun hi lo len v hv => ?_⟩
  · obtain ⟨fuel, hdecode, hrest⟩ := tlvDecode_recordsBytes_append hrs tail
    rw [hdecode, tlvLoop, hrest, fetchRecord_of_short_header htail]
    rfl
  · obtain ⟨fuel, hdecode, hrest⟩ := tlvDecode_recordsBytes_append hrs (hi :: lo :: len :: v)
    rw [hdecode, tlvLoop, hrest, fetchRecord_of_short_value hv]
    rfl

/-- Settles O40: 85 headers would take 255 bytes. -/
theorem decodeCountsAtMost84 : Obligations.DecodeCountsAtMost84 := by
  intro p hp
  have hheaders : 3 * (tlvDecode p).nrec.toNat ≤ p.length :=
    three_mul_nrec_le (p.length + 1) TlvWork.init (Nat.le_refl 0) (Nat.zero_le _)
  omega

end

section
/-! SUPPORT. The status-word decoder (43_status_decoder.md R201 to R205): where the packing puts each field and which
bits it reads, and a category map as a choice of one raw value for each category. -/

namespace Sys2Proof

/-! ### The packing (R203) -/

namespace Machine

/-- The fields of a status word without the zeros above them. The width is left as the sum of the widths of the
fields, so that each of them can be taken off in turn. -/
def statusFields (sw : Word) : BitVec (2 + 1 + 3 + 1 + 1 + 2 + 1 + 1) :=
  sw.extractLsb' 27 2 ++ sw.extractLsb' 26 1 ++ sw.extractLsb' 23 3 ++ sw.extractLsb' 22 1 ++ sw.extractLsb' 21 1
    ++ sw.extractLsb' 3 2 ++ sw.extractLsb' 2 1 ++ sw.extractLsb' 1 1

theorem splitStatus_eq_append (sw : Word) : splitStatus sw = 0#20 ++ statusFields sw :=
  BitVec.setWidth_eq_append (by decide)

/-- `STATUS_DEC` holds nothing above the fields. -/
theorem splitStatus_reserved (sw : Word) : (splitStatus sw).extractLsb' 12 20 = 0 := by
  rw [splitStatus_eq_append]
  exact BitVec.extractLsb'_append_eq_left

/-- Below bit 12, `STATUS_DEC` is the packed fields. -/
theorem splitStatus_extract {start len : Nat} (h : start + len ≤ 12) (sw : Word) :
    (splitStatus sw).extractLsb' start len = (statusFields sw).extractLsb' start len := by
  rw [splitStatus_eq_append, BitVec.extractLsb'_append_eq_of_add_le h]

/-! ### The bits that it reads (R204) -/

/-- A mask with all the bits of a field leaves the field as it was. -/
theorem extractLsb'_and_of_allOnes {w start len : Nat} {m : BitVec w}
    (hm : m.extractLsb' start len = BitVec.allOnes len) (x : BitVec w) :
    (x &&& m).extractLsb' start len = x.extractLsb' start len := by
  rw [BitVec.extractLsb'_and, hm, BitVec.and_allOnes]

/-- The mask of the assigned bits covers every field. -/
theorem splitStatus_and_assigned (sw : Word) : splitStatus (sw &&& 0x1FE0001E) = splitStatus sw := by
  simp (disch := decide) only [splitStatus, extractLsb'_and_of_allOnes]

end Machine

/-! ### The categories (R205) -/

namespace Config.CategoryMap
variable {w : Nat} {m : CategoryMap w}

/-- The raw value that stands for a category. -/
def raw (m : CategoryMap w) : Category → BitVec w
  | .cat0 => m.raw0
  | .cat1 => m.raw1
  | .cat2 => m.raw2

/-- The raw values differ, so each of them is read back as its own category. -/
theorem category_raw (hm : m.wf) (c : Category) : m.category (m.raw c) = some c := by
  obtain ⟨h01, h02, h12⟩ := hm
  cases c
  case cat0 => simp [category, raw]
  case cat1 => simp [category, raw, h01.symm]
  case cat2 => simp [category, raw, h02.symm, h12.symm]

/-- Under any map, no other raw value has that category. -/
theorem eq_raw_of_category {v : BitVec w} {c : Category} (h : m.category v = some c) : v = m.raw c := by
  unfold category at h
  split_ifs at h with h0 h1 h2 <;> obtain rfl := Option.some.inj h
  · exact h0
  · exact h1
  · exact h2

end Config.CategoryMap
end Sys2Proof

open Sys2Proof Sys2Proof.Machine

/-- Settles O41: a field is what is left of the packing when the fields below it and the fields above it are dropped,
and the mask of R204 covers every bit that the packing reads. -/
theorem statusWordFields : Obligations.StatusWordFields := by
  refine fun sw => ⟨⟨?filterValid, ?gnssFix, ?norot, ?syncIn, ?syncOut, ?filterMode, ?timePulse, ?rtk,
    splitStatus_reserved sw⟩, (splitStatus_and_assigned sw).symm⟩
  all_goals
    rw [splitStatus_extract (by decide)]
    simp (disch := decide) only [statusFields, BitVec.extractLsb'_append_eq_of_le,
      BitVec.extractLsb'_append_eq_of_add_le, Nat.reduceSub, BitVec.extractLsb'_eq_self]

/-- Settles O42: the one raw value is the one that the map holds for the category. -/
theorem eachCategoryHasOneRawValue : Obligations.EachCategoryHasOneRawValue := fun _ m hm c =>
  ⟨m.raw c, Config.CategoryMap.category_raw hm c, fun _ => Config.CategoryMap.eq_raw_of_category⟩

end

section
/-! SUPPORT. Host register access (44_host_access.md R210 to R220): what a READ and a WRITE do to the state by index,
and what the end of the step adds, with no event raised and with `BAD_REG` raised. -/

namespace Sys2Proof.Machine

namespace State

/-! ### The end of the step (R233, R236) -/

/-- A step that raised nothing keeps `LAST_CAUSE` and evaluates `irq`. -/
theorem endStep_of_quiet {t : State} (hquiet : t.raised = []) :
    t.endStep = { t with out := { t.out with irq := t.irq } } := by
  rw [endStep, hquiet]
  rfl

/-- `BAD_REG` as the only event of a step: its sticky bit and its cause. -/
theorem endStep_raise_badReg {t : State} (hquiet : t.raised = []) :
    (t.raise .badReg).endStep = { t with
      events := t.events ||| 0x400, lastCause := 0x8000000A, raised := [.badReg]
      out := { t.out with irq := (t.events ||| 0x400) &&& t.irqEn != 0 } } := by
  rw [endStep, raise_raised, hquiet]
  simp only [raise, hquiet]
  rfl

/-! ### `read_reg` and `write_reg` by index (R211, R213) -/

theorem readReg_mapped {i : Nat} (hi : i ≤ 62) (s : State) : s.readReg i = s.putRdata (s.regValue i) :=
  if_pos hi

theorem readReg_unmapped {i : Nat} (hi : 63 ≤ i) (s : State) : s.readReg i = (s.putRdata 0).raise .badReg :=
  if_neg (Nat.not_le.2 hi)

/-- A write of `CTRL` with `SOFT_RST` (R214). -/
theorem writeReg_softReset {v : Word} (hv : v.getLsbD 0 = true) (s : State) :
    s.writeReg 0 v = softReset { s with cksel := v.getLsbD 1 } :=
  if_pos hv

/-- A write of `CTRL` without `SOFT_RST` (R213). -/
theorem writeReg_ctrl {v : Word} (hv : v.getLsbD 0 = false) (s : State) :
    s.writeReg 0 v = { s with cksel := v.getLsbD 1 } :=
  if_neg (ne_true_of_eq_false hv)

/-- The acknowledge keeps bits 31 to 1 of `REC_STATUS` (R216). -/
theorem writeReg_acknowledge {v : Word} (hv : v.getLsbD 0 = true) (s : State) :
    s.writeReg 12 v = { s with recStatus := s.recStatus &&& 0xFFFFFFFE } :=
  if_pos hv

theorem writeReg_recStatus_of_bit_clear {v : Word} (hv : v.getLsbD 0 = false) (s : State) : s.writeReg 12 v = s :=
  if_neg (ne_true_of_eq_false hv)

/-- A read-only or unmapped index is none of those that a WRITE has a rule for (R219). -/
theorem writeReg_readOnly {i : Nat} (hi : i = 1 ∨ i = 11 ∨ 13 ≤ i) (v : Word) (s : State) :
    s.writeReg i v = s.raise .badReg := by
  unfold writeReg
  split
  case h_12 => rfl
  all_goals omega

/-- With `EVENTS` cleared there is nothing to interrupt for (R214). -/
theorem softReset_irq (s : State) : s.softReset.irq = false := by
  simp [irq, softReset]

end State

/-! ### A whole READ or WRITE (R210, R212) -/

theorem exec_rd (i : BitVec 7) (s : State) : exec (.rd i) s = .next (s.beginStep.readReg i.toNat).endStep := rfl

theorem exec_wr (i : BitVec 7) (v : Word) (s : State) :
    exec (.wr i v) s = .next (s.beginStep.writeReg i.toNat v).endStep := rfl

/-- A READ that raises nothing ends with `irq` evaluated and with nothing else changed. -/
theorem exec_rd_of_quiet {i : BitVec 7} {s t : State} (hread : s.beginStep.readReg i.toNat = t)
    (hquiet : t.raised = []) : exec (.rd i) s = .next { t with out := { t.out with irq := t.irq } } := by
  rw [exec_rd, hread, State.endStep_of_quiet hquiet]

/-- A WRITE that raises nothing ends with `irq` evaluated and with nothing else changed. -/
theorem exec_wr_of_quiet {i : BitVec 7} {v : Word} {s t : State} (hwrite : s.beginStep.writeReg i.toNat v = t)
    (hquiet : t.raised = []) : exec (.wr i v) s = .next { t with out := { t.out with irq := t.irq } } := by
  rw [exec_wr, hwrite, State.endStep_of_quiet hquiet]

end Sys2Proof.Machine

open Sys2Proof Sys2Proof.Machine

/-- Settles O10: a mapped READ puts the register on `rdata` and raises nothing; an unmapped one raises `BAD_REG`. -/
theorem readReturnsRegister : Obligations.ReadReturnsRegister := by
  refine fun i s => ⟨fun hi => ?mapped, fun hi => ?unmapped⟩
  case mapped => exact exec_rd_of_quiet (State.readReg_mapped hi s.beginStep) rfl
  case unmapped =>
    rw [exec_rd, State.readReg_unmapped hi, State.endStep_raise_badReg rfl]
    rfl

/-- Settles O12: `SOFT_RST` chooses between the two writes of `CTRL`, and neither raises an event. -/
theorem writeCtrl : Obligations.WriteCtrl := by
  refine fun v s => ⟨fun hv => ?coverage, fun hv => ?softReset⟩
  case coverage => exact exec_wr_of_quiet (i := 0) (State.writeReg_ctrl hv s.beginStep) rfl
  case softReset =>
    have hwrite := exec_wr_of_quiet (i := 0) (State.writeReg_softReset hv s.beginStep) rfl
    rw [State.softReset_irq] at hwrite
    exact hwrite

/-- Settles O13: neither write raises an event, so the step's end only evaluates `irq` on the new register. -/
theorem writeEventsAndIrqEn : Obligations.WriteEventsAndIrqEn := fun _ _ =>
  ⟨exec_wr_of_quiet rfl rfl, exec_wr_of_quiet rfl rfl⟩

/-- Settles O14: none of these writes raises an event, and `irq` reads none of these registers. -/
theorem writeToClearRegisters : Obligations.WriteToClearRegisters := by
  refine fun v s => ⟨?lastCause, ?discardCnt, ?resyncCnt, ?synclossCnt, ?frameCnt, ?ckerrCnt, ?extlenCnt⟩
  all_goals exact exec_wr_of_quiet rfl rfl

/-- Settles O15: bit 0 chooses between the acknowledge and no effect, and neither raises an event. -/
theorem acknowledgeClearsPending : Obligations.AcknowledgeClearsPending := fun _ s =>
  ⟨fun hv => exec_wr_of_quiet (i := 12) (State.writeReg_acknowledge hv s.beginStep) rfl,
    fun hv => exec_wr_of_quiet (i := 12) (State.writeReg_recStatus_of_bit_clear hv s.beginStep) rfl⟩

/-- Settles O16: `write_reg` only raises `BAD_REG` at these indices. -/
theorem writeReadOnlyRaisesBadReg : Obligations.WriteReadOnlyRaisesBadReg := by
  intro i v s hi
  rw [exec_wr, State.writeReg_readOnly hi, State.endStep_raise_badReg rfl]
  rfl

end

section
/-! SUPPORT. Events and the two ends of a step (60_exceptions.md R231, R233, R236, R244): the sticky bits and the cause
that a step leaves, the level of `irq`, and the steps that run no command. -/

namespace Sys2Proof.Machine

/-! ### The cause (R233) -/

/-- The cause is the least of the error and warning codes raised. -/
theorem lowestCause_eq_min? (es : List EventCode) :
    lowestCause es = ((es.map EventCode.code).filter (· ≤ 10)).min? := by
  induction es with
  | nil => rfl
  | cons e es ih =>
    rw [lowestCause, ih, List.map_cons]
    by_cases he : e.code ≤ 10
    · rw [if_pos he, List.filter_cons_of_pos (by simpa using he), List.min?_cons]
      cases ((es.map EventCode.code).filter (· ≤ 10)).min? <;> rfl
    · rw [if_neg he, List.filter_cons_of_neg (by simpa using he)]

theorem lowestCause_eq_some_iff {es : List EventCode} {c : Nat} :
    lowestCause es = some c ↔ (∃ e ∈ es, e.code = c) ∧ c ≤ 10 ∧ ∀ e ∈ es, e.code ≤ 10 → c ≤ e.code := by
  simp [lowestCause_eq_min?, List.min?_eq_some_iff, and_assoc]

/-! ### The sticky bits (R231, R238) -/

/-- `EVENTS` of `t` is that of `s` with the bits of the events that stand in `t.raised` set, and `LAST_CAUSE` waits for
the end of the step. -/
def SetsRaised (s t : State) : Prop :=
  t.events = t.raised.foldr (fun e ev => ev ||| e.bit) s.events ∧ t.lastCause = s.lastCause

namespace SetsRaised

theorem beginStep (s : State) : SetsRaised s s.beginStep := ⟨rfl, rfl⟩

variable {s t : State}

theorem raise (e : EventCode) (h : SetsRaised s t) : SetsRaised s (t.raise e) :=
  h.imp_left (congrArg (· ||| e.bit))

theorem discard (h : SetsRaised s t) : SetsRaised s t.discard :=
  raise .discard h

theorem loseSync (h : SetsRaised s t) : SetsRaised s t.loseSync := by
  unfold State.loseSync
  split
  · exact raise .syncLost h
  · exact h

theorem secondMarker (h : SetsRaised s t) : SetsRaised s t.secondMarker := by
  unfold State.secondMarker
  dsimp only
  split
  · exact h
  · exact raise .syncAcq h

theorem brokenMarker (b : Byte) (h : SetsRaised s t) : SetsRaised s (t.brokenMarker b) := by
  unfold State.brokenMarker
  dsimp only
  split
  · exact h.loseSync.discard
  · exact h.loseSync.discard.discard

theorem frameAccepted (mid ck : Byte) (h : SetsRaised s t) : SetsRaised s (t.frameAccepted mid ck) :=
  raise .frameOk h

theorem recordCommit (p : List Byte) (h : SetsRaised s t) : SetsRaised s (t.recordCommit p) := by
  obtain ⟨hevents, hcause⟩ := h
  rw [SetsRaised, State.recordCommit_events, State.recordCommit_raised, State.recordCommit_lastCause,
    List.foldr_append, hevents]
  exact ⟨rfl, hcause⟩

/-- A BYTE clears no event and sets the bit of every event it raises. -/
theorem byteMove {b : Byte} {u : State} (h : SetsRaised s t) (hmove : ByteMove b t u) : SetsRaised s u := by
  cases hmove with
  | noMarker => exact h.loseSync.discard
  | secondMarker => exact h.secondMarker
  | brokenMarker => exact h.brokenMarker b
  | extendedLen => exact raise .extlen h
  | rejectFrame => exact raise .ckerr h
  | acceptOther => exact h.frameAccepted _ b
  | acceptMeasurement => exact (h.frameAccepted _ b).recordCommit _
  | extSkip => rw [State.extSkip_eq]; exact h
  | _ => exact h

theorem readReg (i : Nat) (h : SetsRaised s t) : SetsRaised s (t.readReg i) := by
  unfold State.readReg
  split
  · exact h
  · exact raise .badReg h

theorem badCommand (h : SetsRaised s t) : SetsRaised s t.badCommand :=
  raise .badCmd h

/-- The end of the step (R231, R233): the order in which the bits were set does not matter, and `LAST_CAUSE` is
updated from the events raised. -/
theorem endStep (h : SetsRaised s t) :
    t.endStep.events = t.endStep.raised.foldl (fun ev e => ev ||| e.bit) s.events ∧
      t.endStep.lastCause = causeAfter t.endStep.raised s.lastCause := by
  obtain ⟨hevents, hcause⟩ := h
  have hcomm : RightCommutative (fun (ev : Word) (e : EventCode) => ev ||| e.bit) :=
    ⟨fun _ _ _ => bitVec_or_right_comm _ _ _⟩
  exact ⟨hevents.trans List.foldr_flip_eq_foldl, congrArg (causeAfter t.raised) hcause⟩

end SetsRaised

/-! ### The steps that run no command (R244, R260) -/

theorem step_idle {s : State} (h : s.inputs = []) : step s = .next s := by
  simp [step, h]

theorem step_rst {s : State} {rest : List Input} (h : s.inputs = .rst :: rest) : step s = .next (s.hardReset rest) := by
  simp [step, h]

end Sys2Proof.Machine

open Sys2Proof Sys2Proof.Machine

/-- Settles O43: the cause is a least element, and every operation of a BYTE, a READ or a reserved word keeps
`SetsRaised`. -/
theorem eventsAreStickyAndLowestCodeWins : Obligations.EventsAreStickyAndLowestCodeWins := by
  refine ⟨fun _ _ => lowestCause_eq_some_iff, fun i s t hi h => ?_⟩
  have hbegin : SetsRaised s s.beginStep := .beginStep s
  obtain ⟨b, rfl⟩ | ⟨r, rfl⟩ | ⟨x, rfl⟩ | ⟨x, rfl⟩ | ⟨x, rfl⟩ | ⟨x, rfl⟩ := hi
  · obtain ⟨u, hu, rfl⟩ := runStep_next_iff.mp h
    exact (hbegin.byteMove (State.takeByte_move hu)).endStep
  · obtain rfl : (s.beginStep.readReg r.toNat).endStep = t := Host.Outcome.next.inj h
    exact (hbegin.readReg r.toNat).endStep
  all_goals
    obtain rfl : s.beginStep.badCommand.endStep = t := Host.Outcome.next.inj h
    exact hbegin.badCommand.endStep

/-- Settles O44: every host command ends with `endStep`, which evaluates the level. -/
theorem irqIsTheLevel : Obligations.IrqIsTheLevel := by
  intro cmd wdata s t h
  obtain ⟨u, rfl, -⟩ := exec_decodeCommand_next h
  rfl

/-- Settles O2: the two branches of a step that take no command. -/
theorem idleAndHardwareReset : Obligations.IdleAndHardwareReset :=
  ⟨fun _ => step_idle, fun _ _ => step_rst⟩

end

section
/-! SUPPORT. The soft reset (70_reset_and_hazards.md R261): what the registers read after it, against the hardware reset
(R260). -/

namespace Sys2Proof.Machine

/-- Bit 1 of a word, at its place in `CTRL` (R24). -/
theorem boolWord_getLsbD_one_shiftLeft (v : Word) : boolWord (v.getLsbD 1) <<< 1 = v &&& 2 := by
  have hmask : (2 : Word) = BitVec.twoPow 32 1 := rfl
  rw [hmask, BitVec.and_twoPow]
  cases v.getLsbD 1 <;> rfl

namespace State

/-- Only `CTRL` and `IRQ_EN` tell the soft reset from the hardware reset (R261): no other register reads a part of the
state that the soft reset keeps. -/
theorem regValue_softReset {i : Nat} (hctrl : i ≠ 0) (hirqEn : i ≠ 3) (s : State) :
    s.softReset.regValue i = reset.regValue i := by
  unfold regValue
  split
  case h_1 => exact absurd rfl hctrl
  case h_4 => exact absurd rfl hirqEn
  all_goals rfl

end State

/-- The whole step of a WRITE of `CTRL` with `SOFT_RST` is a soft reset, of the state with the new `CKSEL` and with the
step's own outputs (R214). -/
theorem exec_wr_softReset {v : Word} (hv : v.getLsbD 0 = true) (s : State) :
    exec (.wr 0 v) s =
      .next (State.softReset { s with cksel := v.getLsbD 1, raised := [], out := ⟨none, [], false⟩ }) :=
  (writeCtrl v s).2 hv

end Sys2Proof.Machine

open Sys2Proof Sys2Proof.Machine

/-- Settles O51: the step ends in a soft reset, whose registers are those of the hardware reset but for the two that it
keeps. -/
theorem softResetIsHardResetButConfiguration : Obligations.SoftResetIsHardResetButConfiguration := by
  intro v s hv
  refine ⟨_, exec_wr_softReset hv s, fun i hlo _ hirqEn => ?registers, ?ctrl, rfl, rfl, rfl, rfl⟩
  case registers => exact State.regValue_softReset (Nat.ne_of_gt hlo) hirqEn _
  case ctrl => exact boolWord_getLsbD_one_shiftLeft v

end
